-- ==== Sys2Proof/Word.lean ====
section
/-! DEFINITION. The two word widths of the 8080: a byte and a 16-bit word (00_scope.md section 4; R10, R15, R17). -/

namespace Sys2Proof

/-- A byte: the width of every register A, B, C, D, E, H, L, of a memory cell and of a port (R10, R40, R47). -/
abbrev Byte := BitVec 8

/-- A 16-bit word: a memory address, SP, PC, or the content of a register pair (R11, R15, R17). -/
abbrev Addr := BitVec 16

end Sys2Proof
end

