-- ==== Sys2Proof/Machine/Bytes.lean ====
section
/-! DEFINITION. Byte order and bit fields: how two bytes make a word and what the fields of an opcode byte are
(R2, R11, R43, R61). -/

namespace Sys2Proof.Machine

/-- `hi : lo`, the first-named byte the more significant (R11, R65). -/
def joinBytes (hi lo : Byte) : Addr := (hi.setWidth 16 <<< 8) ||| lo.setWidth 16

/-- A flag as a byte, 0 or 1. -/
def bitByte (b : Bool) : Byte := (BitVec.ofBool b).setWidth 8

/-- `w[15:8]`. -/
def highByte (w : Addr) : Byte := w.extractLsb' 8 8

/-- `w[7:0]`. -/
def lowByte (w : Addr) : Byte := w.extractLsb' 0 8

/-- Bits 7:6 of an opcode, its group (R61). -/
def fieldX (op : Byte) : BitVec 2 := op.extractLsb' 6 2

/-- Bits 5:3 of an opcode: DDD, CCC, NNN or the ALU operation (R61). -/
def fieldY (op : Byte) : BitVec 3 := op.extractLsb' 3 3

/-- Bits 2:0 of an opcode: SSS (R61). -/
def fieldZ (op : Byte) : BitVec 3 := op.extractLsb' 0 3

/-- The opcode byte with the given fields `xx yyy zzz`. -/
def opcodeOf (x : BitVec 2) (y z : BitVec 3) : Byte := x ++ y ++ z

end Sys2Proof.Machine
end

