-- ==== Sys2Proof/Config.lean ====
section
/-! DEFINITION. What an implementation or a platform fixes (00_scope.md section 4, "Implementation parameters"), as
types whose values State holds, and the free values, which are opaque constants. -/

namespace Sys2Proof.Config

/-- The parameter `AuxSub` of R101: how a subtracting instruction forms AC (log 4). -/
inductive AuxSub where
  /-- AC is the carry out of bit 3 of `a + NOT b + (1 - bin)` (the spec's default). -/
  | complementCarry
  /-- AC is the borrow from bit 4. -/
  | borrow
deriving DecidableEq, Repr

/-- The parameter `AuxAna` of R130: AC after ANA r (log 5). -/
inductive AuxAna where
  /-- AC is bit 3 of (A OR operand) (the spec's default). -/
  | orBit3
  /-- AC is 0. -/
  | zero
deriving DecidableEq, Repr

/-- The parameter `Daa` of R116: which decimal-adjust function the machine has (log 6). -/
inductive DaaBody where
  /-- The default body of R116. -/
  | standard
  /-- Any other function, `Config.daaOther`. -/
  | other
deriving DecidableEq, Repr

/-- The parameter `EiDelay` of R220: how many instruction ends after EI's own still refuse a request (log 7). -/
inductive EiDelay where
  /-- The literal reading of the main source (the spec's default): 1. -/
  | one
  /-- The admissible alternative: 0. -/
  | zero
deriving DecidableEq, Repr

/-- The choice of every named parameter with finitely many admissible values. No instruction reads or writes it as
a register and no step changes it. -/
structure Params where
  auxSub  : AuxSub
  auxAna  : AuxAna
  daa     : DaaBody
  eiDelay : EiDelay
deriving DecidableEq, Repr

/-- What answers at a memory address (the parameter `MemMap`, D13). -/
inductive MemKind where
  /-- Reads return the last byte written. -/
  | ram
  /-- Reads return the stored byte; writes are ignored. -/
  | rom
  /-- Reads return any byte; writes are ignored. -/
  | absent
  /-- Reads return any byte the device drives; the device sees every read and write; nothing is stored. -/
  | device
deriving DecidableEq, Repr

/-- One entry of the memory map: the addresses `base` to `base + size - 1`. -/
structure Region where
  base : Nat
  size : Nat
  kind : MemKind
deriving DecidableEq, Repr

/-- FREE VALUE: the bytes the platform drives beyond those listed in `busAnswers`, one for each value of the counter
`draws` (U8, U10; log 11). No body: nothing can be proved of it. -/
opaque freeByte : Nat → Byte

/-- FREE VALUE: what the interrupt source answers, for each value of the counter of its free answers: no request, or a
request with RST n (R241, U6; log 8). No body: nothing can be proved of it, so what is proved with it holds for every
arrival pattern. -/
opaque freeRequest : Nat → Option (BitVec 3)

/-- FREE VALUE: the decimal-adjust function of a machine whose `Daa` is not the default body: A, AC and CY before to
A, AC and CY after (U4; log 6). No body: nothing can be proved of it. -/
opaque daaOther : Byte → Bool → Bool → Byte × Bool × Bool

end Sys2Proof.Config
end

