-- ==== Sys2Proof/Machine/State.lean ====
section
/-! DEFINITION. The state of the machine as plain data (10_state.md sections 1 to 7, INVENTORY.md "State"), the reasons
a step can stop, the state after reset (R270), and the plain one-field updates. -/

namespace Sys2Proof.Machine

open Sys2Proof.Config

/-- Why a step stops with a fault. -/
inductive Fault where
  /-- Raised by `step` when the opcode fetched is one of the 12 unused codes: `raise IllegalOpcode(op)`, a fault of
  the model, not an event of the processor (R70, R240, D8; log 13). Safe: the hardware does something no source gives. -/
  | illegalOpcode (op : Byte)
deriving DecidableEq, Repr

/-- Why a step is refused. -/
inductive Refusal where
  /-- Raised by an arm of `exec` whose instruction has no meaning yet. Safe. No arm raises it now. -/
  | notModelled (mnemonic : String)
  /-- Raised by `exec` for the term MOV M,M, which does not exist and which no bytes decode to (R67, R80; log 14).
  Safe. -/
  | movMemMem
  /-- Raised by the acceptance check when the interrupt source supplies, for a request that is accepted, an opcode
  other than the eight RST n: "a model must refuse such a configuration rather than guess" (R245, D9; log 9). Safe. -/
  | interruptOpcodeNotRst (op : Byte)
deriving DecidableEq, Repr

/-- The five flags (R18). Bits 5, 3 and 1 of the flag byte are constants, not state (R19). -/
structure Flags where
  /-- Sign. -/
  s : Bool
  /-- Zero. -/
  z : Bool
  /-- Auxiliary carry, out of bit 3. -/
  ac : Bool
  /-- Parity: 1 for an even number of 1 bits. -/
  p : Bool
  /-- Carry, and borrow of subtractions. -/
  cy : Bool
deriving DecidableEq, Repr

/-- The stored bytes of memory: (address, byte) pairs in the canonical form `Memory.wf`. -/
abbrev Memory := List Host.Cell

/-- What the platform sees of the processor's cycles at ports and at device addresses, in the order they happen
(R47, R50, R211, D14; log 12). -/
inductive BusEvent where
  | portRead (port v : Byte)
  | portWrite (port v : Byte)
  | memRead (addr : Addr) (v : Byte)
  | memWrite (addr : Addr) (v : Byte)
deriving DecidableEq, Repr

/-- What the interrupt source answers once its listed answers are used up (R241; log 8). -/
inductive IntAfter where
  /-- No request, for ever. -/
  | never
  /-- The answers `first :: rest`, over and over. -/
  | again (first : Option Byte) (rest : List (Option Byte))
  /-- Any answer at every check: `Config.freeRequest`. -/
  | free
deriving DecidableEq, Repr

/-- The parameter `IntSource`: the answers to the coming acceptance checks, each no request or the opcode byte the device
supplies (R241, R245). -/
structure IntSource where
  /-- The next answers, one for each check. -/
  listed : List (Option Byte)
  /-- The answers after those. -/
  after : IntAfter
  /-- How many free answers have been given. -/
  drawn : Nat
deriving DecidableEq, Repr

/-- The whole state. The last seven fields are the model's own: memory map, parameters and the platform's side. -/
structure State where
  -- general registers (R10)
  a : Byte
  b : Byte
  c : Byte
  d : Byte
  e : Byte
  h : Byte
  l : Byte
  -- flags (R18)
  flags : Flags
  -- stack pointer and program counter (R17, R15)
  sp : Addr
  pc : Addr
  -- INTE (R26), EIWAIT and HALTED (R27)
  inte : Bool
  eiWait : Nat
  halted : Bool
  -- memory (R40)
  mem : Memory
  -- `MemMap`: the first region that holds an address says what answers there; none does: RAM (D13)
  memMap : List Region
  -- `AuxSub`, `AuxAna`, `Daa`, `EiDelay` (D5, D6, D7, D10)
  params : Params
  -- `IntSource` (R241)
  intSource : IntSource
  -- the bytes the platform will drive at the coming IN cycles and reads of absent or device addresses (D13, D14)
  busAnswers : List Byte
  -- how many free bytes have been drawn after `busAnswers` ran out (log 11)
  draws : Nat
  -- the bus events so far, oldest first (D14)
  events : List BusEvent
deriving DecidableEq, Repr

/-- The parameters at the values the spec names as defaults (R101, R130, R116, R220; logs 4 to 7). -/
def defaultParams : Params :=
  { auxSub := .complementCarry, auxAna := .orBit3, daa := .standard, eiDelay := .one }

/-- The machine right after reset (R270): PC = 0000h, INTE = 0, EIWAIT = 0, HALTED = 0. The registers, SP and the flags,
which R270 leaves unspecified, hold 0 (DESIGN CHOICE, unsafe; log 1). -/
def State.reset : State :=
  { a := 0, b := 0, c := 0, d := 0, e := 0, h := 0, l := 0
    flags := { s := false, z := false, ac := false, p := false, cy := false }
    sp := 0, pc := 0
    inte := false, eiWait := 0, halted := false
    mem := [], memMap := [], params := defaultParams
    intSource := { listed := [], after := .free, drawn := 0 }, busAnswers := [], draws := 0, events := [] }

/-! One-field updates; their lemmas stand in Sys2Proof/Laws/State.lean. -/

/-- `a` replaced. -/
def State.setA (s : State) (v : Byte) : State := { s with a := v }

/-- `b` replaced. -/
def State.setB (s : State) (v : Byte) : State := { s with b := v }

/-- `c` replaced. -/
def State.setC (s : State) (v : Byte) : State := { s with c := v }

/-- `d` replaced. -/
def State.setD (s : State) (v : Byte) : State := { s with d := v }

/-- `e` replaced. -/
def State.setE (s : State) (v : Byte) : State := { s with e := v }

/-- `h` replaced. -/
def State.setH (s : State) (v : Byte) : State := { s with h := v }

/-- `l` replaced. -/
def State.setL (s : State) (v : Byte) : State := { s with l := v }

/-- `flags` replaced. -/
def State.setFlags (s : State) (v : Flags) : State := { s with flags := v }

/-- `sp` replaced. -/
def State.setSp (s : State) (v : Addr) : State := { s with sp := v }

/-- `pc` replaced. -/
def State.setPc (s : State) (v : Addr) : State := { s with pc := v }

/-- `inte` replaced. -/
def State.setInte (s : State) (v : Bool) : State := { s with inte := v }

/-- `eiWait` replaced. -/
def State.setEiWait (s : State) (v : Nat) : State := { s with eiWait := v }

/-- `halted` replaced. -/
def State.setHalted (s : State) (v : Bool) : State := { s with halted := v }

/-- `mem` replaced. -/
def State.setMem (s : State) (v : Memory) : State := { s with mem := v }

/-- `memMap` replaced. -/
def State.setMemMap (s : State) (v : List Region) : State := { s with memMap := v }

/-- `intSource` replaced. -/
def State.setIntSource (s : State) (v : IntSource) : State := { s with intSource := v }

/-- `busAnswers` replaced. -/
def State.setBusAnswers (s : State) (v : List Byte) : State := { s with busAnswers := v }

/-- `draws` replaced. -/
def State.setDraws (s : State) (v : Nat) : State := { s with draws := v }

/-- `events` replaced. -/
def State.setEvents (s : State) (v : List BusEvent) : State := { s with events := v }

end Sys2Proof.Machine
end

