-- ==== Sys2Proof/Syntax.lean ====
section
/-! DEFINITION. The abstract syntax: operands, and one constructor of `Instr` for each row of spec/opcode_table.json
(30_encoding.md R69). -/

namespace Sys2Proof

/-- The operand of a 3-bit register code: a register, or M, the memory byte at HL (R10). -/
inductive Operand8 where
  | b | c | d | e | h | l | m | a
deriving DecidableEq, Repr

/-- A pair code of LXI, INX, DCX, DAD: code 11 is SP (R11, R14 `RP`). -/
inductive RegPair where
  | bc | de | hl | sp
deriving DecidableEq, Repr

/-- A pair code of PUSH and POP: code 11 is PSW, A and the flag byte (R11, R14 `RPQ`). -/
inductive StackPair where
  | bc | de | hl | psw
deriving DecidableEq, Repr

/-- The pairs LDAX and STAX take (R87, R88). -/
inductive IndexPair where
  | bc | de
deriving DecidableEq, Repr

/-- A condition code (R160). -/
inductive Cond where
  | nz | z | nc | c | po | pe | p | m
deriving DecidableEq, Repr

/-- One constructor for each row of the opcode table; operands in assembler order, destination first (R72). -/
inductive Instr where
  -- data transfer (40_data_transfer.md)
  | mov (dst src : Operand8)
  | mvi (dst : Operand8) (imm : Byte)
  | lxi (rp : RegPair) (imm : Addr)
  | lda (addr : Addr)
  | sta (addr : Addr)
  | lhld (addr : Addr)
  | shld (addr : Addr)
  | ldax (rp : IndexPair)
  | stax (rp : IndexPair)
  | xchg
  -- arithmetic (41_arithmetic.md)
  | add (src : Operand8)
  | adi (imm : Byte)
  | adc (src : Operand8)
  | aci (imm : Byte)
  | sub (src : Operand8)
  | sui (imm : Byte)
  | sbb (src : Operand8)
  | sbi (imm : Byte)
  | inr (dst : Operand8)
  | dcr (dst : Operand8)
  | inx (rp : RegPair)
  | dcx (rp : RegPair)
  | dad (rp : RegPair)
  | daa
  -- logical, compare, rotate and carry (42_logical.md)
  | ana (src : Operand8)
  | ani (imm : Byte)
  | xra (src : Operand8)
  | xri (imm : Byte)
  | ora (src : Operand8)
  | ori (imm : Byte)
  | cmp (src : Operand8)
  | cpi (imm : Byte)
  | rlc
  | rrc
  | ral
  | rar
  | cma
  | cmc
  | stc
  -- control transfer (43_control_transfer.md)
  | jmp (addr : Addr)
  | jnz (addr : Addr)
  | jz (addr : Addr)
  | jnc (addr : Addr)
  | jc (addr : Addr)
  | jpo (addr : Addr)
  | jpe (addr : Addr)
  | jp (addr : Addr)
  | jm (addr : Addr)
  | call (addr : Addr)
  | cnz (addr : Addr)
  | cz (addr : Addr)
  | cnc (addr : Addr)
  | cc (addr : Addr)
  | cpo (addr : Addr)
  | cpe (addr : Addr)
  | cp (addr : Addr)
  | cm (addr : Addr)
  | ret
  | rnz
  | rz
  | rnc
  | rc
  | rpo
  | rpe
  | rp
  | rm
  | rst (n : BitVec 3)
  | pchl
  -- stack (44_stack.md)
  | push (rp : StackPair)
  | pop (rp : StackPair)
  | xthl
  | sphl
  -- input and output (45_io.md)
  | inPort (port : Byte)
  | outPort (port : Byte)
  -- interrupt control (46_interrupt_control.md)
  | ei
  | di
  -- other (47_other.md)
  | hlt
  | nop
deriving DecidableEq, Repr

end Sys2Proof
end

