-- ==== Sys2Proof/Machine/Flags.lean ====
section
/-! DEFINITION. Every flag computation: the flag byte (R19), S, Z and P of a result (R20 to R25), the adder and the
subtracter (R100, R101), the bitwise instructions (R130), DAA (R116) and the condition codes (R160). -/

namespace Sys2Proof.Machine

open Sys2Proof.Config

/-- The unsigned value of `v[3:0]`. -/
def lowNibble (v : Byte) : Nat := v.toNat % 16

/-- The unsigned value of `v[7:4]`. -/
def highNibble (v : Byte) : Nat := v.toNat / 16

/-- How many of the eight bits are 1. -/
def onesCount (v : Byte) : Nat := (List.range 8).countP fun i => v.getLsbD i

/-- `Parity(v)`: an even number of 1 bits (R23). -/
def parity (v : Byte) : Bool := onesCount v % 2 == 0

/-- `SetSZP(v)`: S, Z and P from a result, AC and CY kept (R25). -/
def setSZP (v : Byte) (f : Flags) : Flags := { f with s := v.msb, z := v == 0, p := parity v }

/-- CY replaced, the other flags kept. -/
def setCY (cy : Bool) (f : Flags) : Flags := { f with cy := cy }

/-- The five flags of a result with the given AC and CY. -/
def flagsOf (v : Byte) (ac cy : Bool) : Flags :=
  setSZP v { s := false, z := false, ac := ac, p := false, cy := cy }

/-- The flag byte F: `S:Z:0:AC:0:P:1:CY` (R19). -/
def flagByte (f : Flags) : Byte :=
  BitVec.ofBool f.s ++ BitVec.ofBool f.z ++ 0#1 ++ BitVec.ofBool f.ac ++ 0#1 ++ BitVec.ofBool f.p ++ 1#1 ++
    BitVec.ofBool f.cy

/-- The flags loaded from a byte; its bits 5, 3 and 1 are ignored (R19, D4). -/
def flagsFromByte (v : Byte) : Flags :=
  { s := v.getLsbD 7, z := v.getLsbD 6, ac := v.getLsbD 4, p := v.getLsbD 2, cy := v.getLsbD 0 }

/-- `Add8(a, b, cin)`: the sum and its five flags (R100). -/
def add8 (a b : Byte) (cin : Bool) : Byte × Flags :=
  let sum9 := a.toNat + b.toNat + cin.toNat
  let result := BitVec.ofNat 8 sum9
  (result, flagsOf result (decide (lowNibble a + lowNibble b + cin.toNat > 15)) (decide (sum9 > 255)))

/-- `AuxSub(a, b, bin)` under each of its two admissible values (R101, D5; log 4). -/
def auxSub (mode : AuxSub) (a b : Byte) (bin : Bool) : Bool :=
  match mode with
  | .complementCarry => decide (lowNibble a + lowNibble (~~~b) + (1 - bin.toNat) > 15)
  | .borrow => decide (lowNibble a < lowNibble b + bin.toNat)

/-- `Sub8(a, b, bin)`: the difference and its five flags, CY being the borrow (R101, R102). -/
def sub8 (mode : AuxSub) (a b : Byte) (bin : Bool) : Byte × Flags :=
  let diff : Int := (a.toNat : Int) - b.toNat - bin.toNat
  let result := BitVec.ofInt 8 diff
  (result, flagsOf result (auxSub mode a b bin) (decide (diff < 0)))

/-- `AuxAna(a, v)` under each of its two admissible values (R130, D6; log 5). -/
def auxAna (mode : AuxAna) (a v : Byte) : Bool :=
  match mode with
  | .orBit3 => a.getLsbD 3 || v.getLsbD 3
  | .zero => false

/-- The flags of `Logic(res, ac)`: S, Z, P from the result, CY = 0, AC as given (R130). -/
def logicFlags (res : Byte) (ac : Bool) : Flags := flagsOf res ac false

/-- The default body of `Daa`: A, AC and CY before to A, AC and CY after (R116; log 6). -/
def daaStandard (a : Byte) (ac cy : Bool) : Byte × Bool × Bool :=
  let low := decide (lowNibble a > 9) || ac
  let high := decide (highNibble a > 9) || cy || (decide (highNibble a ≥ 9) && decide (lowNibble a > 9))
  let corr : Byte := (if low then 0x06 else 0) + (if high then 0x60 else 0)
  (a + corr, decide (lowNibble a + lowNibble corr > 15), high || cy)

/-- `Daa(A, AC, CY)` of the machine (R116, D7; log 6). -/
def daa (body : DaaBody) (a : Byte) (ac cy : Bool) : Byte × Bool × Bool :=
  match body with
  | .standard => daaStandard a ac cy
  | .other => Config.daaOther a ac cy

/-- `Cond(ccc)` (R160). -/
def condHolds (cc : Cond) (f : Flags) : Bool :=
  match cc with
  | .nz => !f.z
  | .z => f.z
  | .nc => !f.cy
  | .c => f.cy
  | .po => !f.p
  | .pe => f.p
  | .p => !f.s
  | .m => f.s

end Sys2Proof.Machine
end

