-- ==== Sys2Proof/Machine/Ops.lean ====
section
/-! DEFINITION. The named operations over memory, ports, the stack and the program counter (20_memory.md), and taking an
interrupt with the check that does so (60_exceptions.md R243, R244). -/

namespace Sys2Proof.Machine

open Sys2Proof.Config

/-- The outcome of an instruction or a step. -/
abbrev Result := Host.Outcome State Fault Refusal

/-! Stored bytes. -/

/-- What an address that no entry lists reads as: 00h (DESIGN CHOICE, unsafe; log 3). -/
def Memory.unlisted : Byte := 0

/-- The stored byte at an address. -/
def Memory.read (m : Memory) (addr : Nat) : Byte :=
  match m with
  | [] => Memory.unlisted
  | (k, v) :: rest => if k = addr then v else Memory.read rest addr

/-- The entry for `addr` put in its place in a list that has none for it, unless unlisted reads as `v` already. -/
def Memory.place (m : Memory) (addr : Nat) (v : Byte) : Memory :=
  if v = Memory.unlisted then m
  else match m with
    | [] => [(addr, v)]
    | (k, w) :: rest => if addr < k then (addr, v) :: (k, w) :: rest else (k, w) :: Memory.place rest addr v

/-- The cell `addr` holds `v` afterwards and every other cell what it held. -/
def Memory.write (m : Memory) (addr : Nat) (v : Byte) : Memory :=
  Memory.place (m.filter fun cell => cell.1 != addr) addr v

/-- The canonical form: addresses strictly rising and below 65536 (R40), no entry equal to what unlisted reads as. -/
def Memory.wf (m : Memory) : Bool :=
  decide (m.Pairwise fun x y => x.1 < y.1) && m.all fun cell => decide (cell.1 < 65536) && cell.2 != Memory.unlisted

/-- The byte stored at a 16-bit address, whatever answers there. -/
def State.byteAt (s : State) (addr : Addr) : Byte := Memory.read s.mem addr.toNat

/-- The memory map's answer for an address: the first region that holds it, RAM if none does (D13; log 10). -/
def kindAt (map : List Region) (addr : Addr) : MemKind :=
  match map with
  | [] => .ram
  | r :: rest => if r.base ≤ addr.toNat ∧ addr.toNat < r.base + r.size then r.kind else kindAt rest addr

/-! The platform's side of a cycle. -/

/-- A byte of the platform's choosing: the next one listed, and once the list is empty a free value (D14; log 11). -/
def draw (s : State) : Byte × State :=
  match s.busAnswers with
  | v :: rest => (v, s.setBusAnswers rest)
  | [] => (Config.freeByte s.draws, s.setDraws (s.draws + 1))

/-- A bus event appended to the trace (D14; log 12). -/
def State.record (s : State) (e : BusEvent) : State := s.setEvents (s.events ++ [e])

/-- `MemRead(addr, 1)` (R41, D13). -/
def memRead (addr : Addr) (s : State) : Byte × State :=
  match kindAt s.memMap addr with
  | .ram => (s.byteAt addr, s)
  | .rom => (s.byteAt addr, s)
  | .absent => draw s
  | .device =>
    let r := draw s
    (r.1, r.2.record (.memRead addr r.1))

/-- `MemWrite(addr, 1, v)` (R42, D13, D20). -/
def memWrite (addr : Addr) (v : Byte) (s : State) : State :=
  match kindAt s.memMap addr with
  | .ram => s.setMem (Memory.write s.mem addr.toNat v)
  | .rom => s
  | .absent => s
  | .device => s.record (.memWrite addr v)

/-- `IoRead(port)` (R47, D14). -/
def ioRead (port : Byte) (s : State) : Byte × State :=
  let r := draw s
  (r.1, r.2.record (.portRead port r.1))

/-- `IoWrite(port, v)` (R47, D14). -/
def ioWrite (port v : Byte) (s : State) : State := s.record (.portWrite port v)

/-! The stack and two-byte transfers. -/

/-- `Push16(v)`: the high byte to SP-1, then the low byte to SP-2, SP becomes SP-2 (R44, R45). -/
def push16 (v : Addr) (s : State) : State :=
  let s1 := memWrite (s.sp - 1) (highByte v) s
  let s2 := memWrite (s.sp - 2) (lowByte v) s1
  s2.setSp (s.sp - 2)

/-- `Pop16()`: the low byte from SP, then the high byte from SP+1, SP becomes SP+2 (R44, R46). -/
def pop16 (s : State) : Addr × State :=
  let lo := memRead s.sp s
  let hi := memRead (s.sp + 1) lo.2
  (joinBytes hi.1 lo.1, hi.2.setSp (s.sp + 2))

/-! Control transfer. -/

/-- Jump to `target` when the condition holds; the operand bytes are read already (R162). -/
def jumpIf (cond : Bool) (target : Addr) (s : State) : State := if cond then s.setPc target else s

/-- A call: the PC, which is past the instruction, is pushed and replaced (R171). -/
def callTo (target : Addr) (s : State) : State := (push16 s.pc s).setPc target

/-- Call `target` when the condition holds; otherwise nothing is written (R172). -/
def callIf (cond : Bool) (target : Addr) (s : State) : State := if cond then callTo target s else s

/-- A return, which is also the return from an interrupt handler: there is no other (R181, R247). -/
def returnTo (s : State) : State :=
  let r := pop16 s
  r.2.setPc r.1

/-- Return when the condition holds; otherwise the stack is not read (R182). -/
def returnIf (cond : Bool) (s : State) : State := if cond then returnTo s else s

/-- The restart address `8 * n` (R66, R191). -/
def restartAddr (n : BitVec 3) : Addr := n.setWidth 16 <<< 3

/-! The interrupt: the only exception of the 8080 (R240, R241). -/

/-- `Accept(n)`: INTE, EIWAIT and HALTED cleared, PC pushed without being incremented, PC at the restart address
(R244, D9, D25, D26; log 20). -/
def accept (n : BitVec 3) (s : State) : State :=
  callTo (restartAddr n) (((s.setInte false).setEiWait 0).setHalted false)

/-- The number n when the byte is the opcode `11NNN111` of RST n (R245). -/
def rstNumber (op : Byte) : Option (BitVec 3) :=
  if fieldX op = 3 ∧ fieldZ op = 7 then some (fieldY op) else none

/-- The opcode `11NNN111` of RST n (R245). -/
def rstOpcode (n : BitVec 3) : Byte := opcodeOf 3 n 7

/-- One question to the interrupt source: its answer, and the source with that answer used up (R241; log 8). -/
def askSource (src : IntSource) : Option Byte × IntSource :=
  match src.listed with
  | answer :: rest => (answer, { src with listed := rest })
  | [] =>
    match src.after with
    | .never => (none, src)
    | .again first rest => (first, { src with listed := rest })
    | .free => ((Config.freeRequest src.drawn).map rstOpcode, { src with drawn := src.drawn + 1 })

/-- The source after `k` questions. -/
def sourceAfter (k : Nat) (src : IntSource) : IntSource :=
  match k with
  | 0 => src
  | k + 1 => sourceAfter k (askSource src).2

/-- The answer to the question after `k` others. -/
def answerAt (k : Nat) (src : IntSource) : Option Byte := (askSource (sourceAfter k src)).1

/-- Every answer of the source that can be told from its data is no request; free answers cannot be told. -/
def isSilent (src : IntSource) : Bool :=
  src.listed.all Option.isNone &&
  match src.after with
  | .never => true
  | .again first rest => first.isNone && rest.all Option.isNone
  | .free => false

/-- The interrupt source asked at an acceptance check; its answer is used up whether or not a request is taken (R241). -/
def askIntSource (s : State) : Option Byte × State :=
  let r := askSource s.intSource
  (r.1, s.setIntSource r.2)

/-- `InterruptCheck()`: run at every instruction end and at every step of a halted machine (R243). -/
def interruptCheck (s : State) : Result :=
  let r := askIntSource s
  if s.eiWait > 0 then .next (r.2.setEiWait (s.eiWait - 1))
  else if s.inte then
    match r.1 with
    | none => .next r.2
    | some op =>
      match rstNumber op with
      | some n => .next (accept n r.2)
      | none => .refused (.interruptOpcodeNotRst op)
  else .next r.2

end Sys2Proof.Machine
end

