-- ==== Sys2Proof/Machine/Operands.lean ====
section
/-! DEFINITION. Every operand form: registers and M by code (R13), pairs by code (R14). -/

namespace Sys2Proof.Machine

/-- BC (R11). -/
def State.bc (s : State) : Addr := joinBytes s.b s.c

/-- DE (R11). -/
def State.de (s : State) : Addr := joinBytes s.d s.e

/-- HL (R11). -/
def State.hl (s : State) : Addr := joinBytes s.h s.l

/-- `BC <- v` (R11). -/
def State.setBc (s : State) (v : Addr) : State := (s.setB (highByte v)).setC (lowByte v)

/-- `DE <- v` (R11). -/
def State.setDe (s : State) (v : Addr) : State := (s.setD (highByte v)).setE (lowByte v)

/-- `HL <- v` (R11). -/
def State.setHl (s : State) (v : Addr) : State := (s.setH (highByte v)).setL (lowByte v)

/-- `Rd8(c)`: a register, or one memory read at HL (R13). -/
def readOperand (r : Operand8) (s : State) : Byte × State :=
  match r with
  | .b => (s.b, s)
  | .c => (s.c, s)
  | .d => (s.d, s)
  | .e => (s.e, s)
  | .h => (s.h, s)
  | .l => (s.l, s)
  | .m => memRead s.hl s
  | .a => (s.a, s)

/-- `Wr8(c, v)`: a register, or one memory write at HL (R13). -/
def writeOperand (r : Operand8) (v : Byte) (s : State) : State :=
  match r with
  | .b => s.setB v
  | .c => s.setC v
  | .d => s.setD v
  | .e => s.setE v
  | .h => s.setH v
  | .l => s.setL v
  | .m => memWrite s.hl v s
  | .a => s.setA v

/-- `RP(p)` (R14). -/
def readPair (p : RegPair) (s : State) : Addr :=
  match p with
  | .bc => s.bc
  | .de => s.de
  | .hl => s.hl
  | .sp => s.sp

/-- `RP(p) <- v` (R14). -/
def writePair (p : RegPair) (v : Addr) (s : State) : State :=
  match p with
  | .bc => s.setBc v
  | .de => s.setDe v
  | .hl => s.setHl v
  | .sp => s.setSp v

/-- `RPQ(p)`: code 11 is A in the high byte and the flag byte in the low byte (R14, R200). -/
def readStackPair (p : StackPair) (s : State) : Addr :=
  match p with
  | .bc => s.bc
  | .de => s.de
  | .hl => s.hl
  | .psw => joinBytes s.a (flagByte s.flags)

/-- `RPQ(p) <- v`: code 11 loads A and the five flags (R14, R19, R201). -/
def writeStackPair (p : StackPair) (v : Addr) (s : State) : State :=
  match p with
  | .bc => s.setBc v
  | .de => s.setDe v
  | .hl => s.setHl v
  | .psw => (s.setA (highByte v)).setFlags (flagsFromByte (lowByte v))

/-- The address LDAX and STAX use (R87, R88). -/
def indexAddr (p : IndexPair) (s : State) : Addr :=
  match p with
  | .bc => s.bc
  | .de => s.de

/-- A and the five flags replaced by the result of an ALU operation (R100, R101, R130). -/
def State.setAlu (s : State) (r : Byte × Flags) : State := (s.setA r.1).setFlags r.2

end Sys2Proof.Machine
end

