-- ==== Sys2Proof/Machine/Arithmetic.lean ====
section
/-! DEFINITION. The meanings of the arithmetic instructions (41_arithmetic.md). -/

namespace Sys2Proof.Machine

/-- `A <- Add8(A, v, cin)` with its five flags (R100). -/
def addToA (v : Byte) (cin : Bool) (s : State) : State := s.setAlu (add8 s.a v cin)

/-- `A <- Sub8(A, v, bin)` with its five flags (R101). -/
def subFromA (v : Byte) (bin : Bool) (s : State) : State := s.setAlu (sub8 s.params.auxSub s.a v bin)

/-- ADD r (R103). -/
def execAdd (src : Operand8) (s : State) : Result :=
  let v := readOperand src s
  .next (addToA v.1 false v.2)

/-- ADI d8 (R104). -/
def execAdi (imm : Byte) (s : State) : Result := .next (addToA imm false s)

/-- ADC r (R105). -/
def execAdc (src : Operand8) (s : State) : Result :=
  let v := readOperand src s
  .next (addToA v.1 s.flags.cy v.2)

/-- ACI d8 (R106). -/
def execAci (imm : Byte) (s : State) : Result := .next (addToA imm s.flags.cy s)

/-- SUB r (R107). -/
def execSub (src : Operand8) (s : State) : Result :=
  let v := readOperand src s
  .next (subFromA v.1 false v.2)

/-- SUI d8 (R108). -/
def execSui (imm : Byte) (s : State) : Result := .next (subFromA imm false s)

/-- SBB r (R109). -/
def execSbb (src : Operand8) (s : State) : Result :=
  let v := readOperand src s
  .next (subFromA v.1 s.flags.cy v.2)

/-- SBI d8 (R110). -/
def execSbi (imm : Byte) (s : State) : Result := .next (subFromA imm s.flags.cy s)

/-- INR r: S, Z, AC, P as an addition of 1, CY kept; M is one read and then one write (R111). -/
def execInr (dst : Operand8) (s : State) : Result :=
  let v := readOperand dst s
  let r := add8 v.1 1 false
  .next (writeOperand dst r.1 (v.2.setFlags (setCY s.flags.cy r.2)))

/-- DCR r: S, Z, AC, P as a subtraction of 1, CY kept; M is one read and then one write (R112). -/
def execDcr (dst : Operand8) (s : State) : Result :=
  let v := readOperand dst s
  let r := sub8 s.params.auxSub v.1 1 false
  .next (writeOperand dst r.1 (v.2.setFlags (setCY s.flags.cy r.2)))

/-- INX rp: no flag changes (R113). -/
def execInx (rp : RegPair) (s : State) : Result := .next (writePair rp (readPair rp s + 1) s)

/-- DCX rp: no flag changes (R114). -/
def execDcx (rp : RegPair) (s : State) : Result := .next (writePair rp (readPair rp s - 1) s)

/-- DAD rp: CY is the carry out of bit 15, the other flags kept (R115). -/
def execDad (rp : RegPair) (s : State) : Result :=
  let sum17 := s.hl.toNat + (readPair rp s).toNat
  .next ((s.setHl (BitVec.ofNat 16 sum17)).setFlags (setCY (decide (sum17 > 65535)) s.flags))

/-- DAA: A, AC and CY by the machine's `Daa`, then S, Z and P from the new A (R116). -/
def execDaa (s : State) : Result :=
  let r := daa s.params.daa s.a s.flags.ac s.flags.cy
  .next (s.setAlu (r.1, flagsOf r.1 r.2.1 r.2.2))

end Sys2Proof.Machine
end

