-- ==== Sys2Proof/Machine/ControlTransfer.lean ====
section
/-! DEFINITION. The meanings of the control transfer instructions (43_control_transfer.md). PC is past the instruction,
operand bytes included, when a meaning starts (R15; log 24). No flag changes. -/

namespace Sys2Proof.Machine

/-- JMP a16 (R161). -/
def execJmp (target : Addr) (s : State) : Result := .next (s.setPc target)

/-- JNZ a16 (R162, R163). -/
def execJnz (target : Addr) (s : State) : Result := .next (jumpIf (condHolds .nz s.flags) target s)

/-- JZ a16 (R162, R164). -/
def execJz (target : Addr) (s : State) : Result := .next (jumpIf (condHolds .z s.flags) target s)

/-- JNC a16 (R162, R165). -/
def execJnc (target : Addr) (s : State) : Result := .next (jumpIf (condHolds .nc s.flags) target s)

/-- JC a16 (R162, R166). -/
def execJc (target : Addr) (s : State) : Result := .next (jumpIf (condHolds .c s.flags) target s)

/-- JPO a16 (R162, R167). -/
def execJpo (target : Addr) (s : State) : Result := .next (jumpIf (condHolds .po s.flags) target s)

/-- JPE a16 (R162, R168). -/
def execJpe (target : Addr) (s : State) : Result := .next (jumpIf (condHolds .pe s.flags) target s)

/-- JP a16 (R162, R169). -/
def execJp (target : Addr) (s : State) : Result := .next (jumpIf (condHolds .p s.flags) target s)

/-- JM a16 (R162, R170). -/
def execJm (target : Addr) (s : State) : Result := .next (jumpIf (condHolds .m s.flags) target s)

/-- CALL a16 (R171). -/
def execCall (target : Addr) (s : State) : Result := .next (callTo target s)

/-- CNZ a16 (R172, R173). -/
def execCnz (target : Addr) (s : State) : Result := .next (callIf (condHolds .nz s.flags) target s)

/-- CZ a16 (R172, R174). -/
def execCz (target : Addr) (s : State) : Result := .next (callIf (condHolds .z s.flags) target s)

/-- CNC a16 (R172, R175). -/
def execCnc (target : Addr) (s : State) : Result := .next (callIf (condHolds .nc s.flags) target s)

/-- CC a16 (R172, R176). -/
def execCc (target : Addr) (s : State) : Result := .next (callIf (condHolds .c s.flags) target s)

/-- CPO a16 (R172, R177). -/
def execCpo (target : Addr) (s : State) : Result := .next (callIf (condHolds .po s.flags) target s)

/-- CPE a16 (R172, R178). -/
def execCpe (target : Addr) (s : State) : Result := .next (callIf (condHolds .pe s.flags) target s)

/-- CP a16 (R172, R179). -/
def execCp (target : Addr) (s : State) : Result := .next (callIf (condHolds .p s.flags) target s)

/-- CM a16 (R172, R180). -/
def execCm (target : Addr) (s : State) : Result := .next (callIf (condHolds .m s.flags) target s)

/-- RET (R181). -/
def execRet (s : State) : Result := .next (returnTo s)

/-- RNZ (R182, R183). -/
def execRnz (s : State) : Result := .next (returnIf (condHolds .nz s.flags) s)

/-- RZ (R182, R184). -/
def execRz (s : State) : Result := .next (returnIf (condHolds .z s.flags) s)

/-- RNC (R182, R185). -/
def execRnc (s : State) : Result := .next (returnIf (condHolds .nc s.flags) s)

/-- RC (R182, R186). -/
def execRc (s : State) : Result := .next (returnIf (condHolds .c s.flags) s)

/-- RPO (R182, R187). -/
def execRpo (s : State) : Result := .next (returnIf (condHolds .po s.flags) s)

/-- RPE (R182, R188). -/
def execRpe (s : State) : Result := .next (returnIf (condHolds .pe s.flags) s)

/-- RP (R182, R189). -/
def execRp (s : State) : Result := .next (returnIf (condHolds .p s.flags) s)

/-- RM (R182, R190). -/
def execRm (s : State) : Result := .next (returnIf (condHolds .m s.flags) s)

/-- RST n: a call of the restart address (R191). -/
def execRst (n : BitVec 3) (s : State) : Result := .next (callTo (restartAddr n) s)

/-- PCHL (R192). -/
def execPchl (s : State) : Result := .next (s.setPc s.hl)

end Sys2Proof.Machine
end

