-- ==== Sys2Proof/Machine/DataTransfer.lean ====
section
/-! DEFINITION. The meanings of the data transfer instructions (40_data_transfer.md). In every meaning PC is already past
the instruction (R15; log 24). No flag changes. -/

namespace Sys2Proof.Machine

/-- MOV r1,r2: `v <- Rd8(SSS); Wr8(DDD, v)`; MOV M,M does not exist (R80; log 14). -/
def execMov (dst src : Operand8) (s : State) : Result :=
  match dst, src with
  | .m, .m => .refused .movMemMem
  | _, _ =>
    let v := readOperand src s
    .next (writeOperand dst v.1 v.2)

/-- MVI r,d8 (R81). -/
def execMvi (dst : Operand8) (imm : Byte) (s : State) : Result := .next (writeOperand dst imm s)

/-- LXI rp,d16 (R82). -/
def execLxi (rp : RegPair) (imm : Addr) (s : State) : Result := .next (writePair rp imm s)

/-- LDA a16 (R83). -/
def execLda (addr : Addr) (s : State) : Result :=
  let v := memRead addr s
  .next (v.2.setA v.1)

/-- STA a16 (R84). -/
def execSta (addr : Addr) (s : State) : Result := .next (memWrite addr s.a s)

/-- LHLD a16: L from addr, then H from addr+1 (R44, R85). -/
def execLhld (addr : Addr) (s : State) : Result :=
  let lo := memRead addr s
  let hi := memRead (addr + 1) lo.2
  .next ((hi.2.setL lo.1).setH hi.1)

/-- SHLD a16: L to addr, then H to addr+1 (R44, R86). -/
def execShld (addr : Addr) (s : State) : Result := .next (memWrite (addr + 1) s.h (memWrite addr s.l s))

/-- LDAX rp (R87). -/
def execLdax (rp : IndexPair) (s : State) : Result :=
  let v := memRead (indexAddr rp s) s
  .next (v.2.setA v.1)

/-- STAX rp (R88). -/
def execStax (rp : IndexPair) (s : State) : Result := .next (memWrite (indexAddr rp s) s.a s)

/-- XCHG: HL and DE exchanged (R89). -/
def execXchg (s : State) : Result := .next ((s.setHl s.de).setDe s.hl)

end Sys2Proof.Machine
end

