-- ==== Sys2Proof/Machine/InputOutput.lean ====
section
/-! DEFINITION. The meanings of IN and OUT (45_io.md). -/

namespace Sys2Proof.Machine

/-- IN p8: A from one I/O read (R210). -/
def execIn (port : Byte) (s : State) : Result :=
  let v := ioRead port s
  .next (v.2.setA v.1)

/-- OUT p8: one I/O write of A (R211). -/
def execOut (port : Byte) (s : State) : Result := .next (ioWrite port s.a s)

end Sys2Proof.Machine
end

