-- ==== Sys2Proof/Machine/InterruptControl.lean ====
section
/-! DEFINITION. The meanings of EI and DI (46_interrupt_control.md). -/

namespace Sys2Proof.Machine

open Sys2Proof.Config

/-- The number the parameter `EiDelay` stands for (R220, D10). -/
def eiDelayOf (d : EiDelay) : Nat :=
  match d with
  | .one => 1
  | .zero => 0

/-- EI: `INTE <- 1; EIWAIT <- EiDelay + 1` (R220; log 7). -/
def execEi (s : State) : Result := .next ((s.setInte true).setEiWait (eiDelayOf s.params.eiDelay + 1))

/-- DI: `INTE <- 0; EIWAIT <- 0` (R221; log 26). -/
def execDi (s : State) : Result := .next ((s.setInte false).setEiWait 0)

end Sys2Proof.Machine
end

