-- ==== Sys2Proof/Machine/Logical.lean ====
section
/-! DEFINITION. The meanings of the logical, compare, rotate and carry instructions (42_logical.md). -/

namespace Sys2Proof.Machine

/-- `Logic(res, ac)` (R130). -/
def logicToA (res : Byte) (ac : Bool) (s : State) : State := s.setAlu (res, logicFlags res ac)

/-- The flags of `Sub8(A, v, 0)`, whose result is discarded (R137). -/
def compareA (v : Byte) (s : State) : State := s.setFlags (sub8 s.params.auxSub s.a v false).2

/-- A and CY replaced, the other flags kept (42_logical.md section 4). -/
def rotateTo (v : Byte) (cy : Bool) (s : State) : State := (s.setA v).setFlags (setCY cy s.flags)

/-- ANA r (R131). -/
def execAna (src : Operand8) (s : State) : Result :=
  let v := readOperand src s
  .next (logicToA (s.a &&& v.1) (auxAna s.params.auxAna s.a v.1) v.2)

/-- ANI d8 (R132). -/
def execAni (imm : Byte) (s : State) : Result := .next (logicToA (s.a &&& imm) false s)

/-- XRA r (R133). -/
def execXra (src : Operand8) (s : State) : Result :=
  let v := readOperand src s
  .next (logicToA (s.a ^^^ v.1) false v.2)

/-- XRI d8 (R134). -/
def execXri (imm : Byte) (s : State) : Result := .next (logicToA (s.a ^^^ imm) false s)

/-- ORA r (R135). -/
def execOra (src : Operand8) (s : State) : Result :=
  let v := readOperand src s
  .next (logicToA (s.a ||| v.1) false v.2)

/-- ORI d8 (R136). -/
def execOri (imm : Byte) (s : State) : Result := .next (logicToA (s.a ||| imm) false s)

/-- CMP r (R137). -/
def execCmp (src : Operand8) (s : State) : Result :=
  let v := readOperand src s
  .next (compareA v.1 v.2)

/-- CPI d8 (R138). -/
def execCpi (imm : Byte) (s : State) : Result := .next (compareA imm s)

/-- RLC: `b <- A[7]; A <- (A[6:0] << 1) | b; CY <- b` (R139). -/
def execRlc (s : State) : Result :=
  .next (rotateTo ((s.a <<< 1) ||| bitByte s.a.msb) s.a.msb s)

/-- RRC: `b <- A[0]; A <- (b << 7) | A[7:1]; CY <- b` (R140). -/
def execRrc (s : State) : Result :=
  .next (rotateTo ((bitByte (s.a.getLsbD 0) <<< 7) ||| (s.a >>> 1)) (s.a.getLsbD 0) s)

/-- RAL: as RLC with the old CY entering at bit 0 (R141). -/
def execRal (s : State) : Result :=
  .next (rotateTo ((s.a <<< 1) ||| bitByte s.flags.cy) s.a.msb s)

/-- RAR: as RRC with the old CY entering at bit 7 (R142). -/
def execRar (s : State) : Result :=
  .next (rotateTo ((bitByte s.flags.cy <<< 7) ||| (s.a >>> 1)) (s.a.getLsbD 0) s)

/-- CMA: no flag changes (R143). -/
def execCma (s : State) : Result := .next (s.setA (~~~s.a))

/-- CMC (R144). -/
def execCmc (s : State) : Result := .next (s.setFlags (setCY (!s.flags.cy) s.flags))

/-- STC (R145). -/
def execStc (s : State) : Result := .next (s.setFlags (setCY true s.flags))

end Sys2Proof.Machine
end

