-- ==== Sys2Proof/Machine/Other.lean ====
section
/-! DEFINITION. The meanings of HLT and NOP (47_other.md). -/

namespace Sys2Proof.Machine

/-- HLT: `HALTED <- 1`, PC past the HLT (R230). -/
def execHlt (s : State) : Result := .next (s.setHalted true)

/-- NOP: nothing beyond the opcode fetch (R231). -/
def execNop (s : State) : Result := .next s

end Sys2Proof.Machine
end

