-- ==== Sys2Proof/Machine/Stack.lean ====
section
/-! DEFINITION. The meanings of the stack instructions (44_stack.md). -/

namespace Sys2Proof.Machine

/-- PUSH rp (R200). -/
def execPush (rp : StackPair) (s : State) : Result := .next (push16 (readStackPair rp s) s)

/-- POP rp (R201). -/
def execPop (rp : StackPair) (s : State) : Result :=
  let r := pop16 s
  .next (writeStackPair rp r.1 r.2)

/-- XTHL: read SP, read SP+1, write SP+1, write SP; SP kept (R44, R202, D17; log 16). -/
def execXthl (s : State) : Result :=
  let lo := memRead s.sp s
  let hi := memRead (s.sp + 1) lo.2
  let t := memWrite s.sp s.l (memWrite (s.sp + 1) s.h hi.2)
  .next ((t.setH hi.1).setL lo.1)

/-- SPHL (R203). -/
def execSphl (s : State) : Result := .next (s.setSp s.hl)

end Sys2Proof.Machine
end

