-- ==== Sys2Proof/Decode.lean ====
section
/-! DEFINITION. The decoder and, after it, the encoder (30_encoding.md). The first byte alone decides the instruction
and its length (R60); decoding is total on any list of bytes and rejects by name. -/

namespace Sys2Proof

open Sys2Proof.Machine

/-- The register of a 3-bit code (R10). -/
def Operand8.ofCode (code : BitVec 3) : Operand8 :=
  match code.toNat with
  | 0 => .b | 1 => .c | 2 => .d | 3 => .e | 4 => .h | 5 => .l | 6 => .m | _ => .a

/-- The 3-bit code of a register (R10). -/
def Operand8.code : Operand8 → BitVec 3
  | .b => 0 | .c => 1 | .d => 2 | .e => 3 | .h => 4 | .l => 5 | .m => 6 | .a => 7

/-- The 2-bit code of a pair, 11 being SP (R11). -/
def RegPair.code : RegPair → BitVec 2
  | .bc => 0 | .de => 1 | .hl => 2 | .sp => 3

/-- The 2-bit code of a pair, 11 being PSW (R11). -/
def StackPair.code : StackPair → BitVec 2
  | .bc => 0 | .de => 1 | .hl => 2 | .psw => 3

/-- The 2-bit code of the pair of LDAX and STAX (R87, R88). -/
def IndexPair.code : IndexPair → BitVec 2
  | .bc => 0 | .de => 1

/-- The 3-bit code of a condition (R160). -/
def Cond.code : Cond → BitVec 3
  | .nz => 0 | .z => 1 | .nc => 2 | .c => 3 | .po => 4 | .pe => 5 | .p => 6 | .m => 7

/-- What an opcode byte stands for: one of the 12 unused codes, a whole instruction, or an instruction that still
takes one byte B2 or the word B3:B2 (R60, R63, R70). -/
inductive OpForm where
  | unused
  | bare (i : Instr)
  | takesByte (f : Byte → Instr)
  | takesWord (f : Addr → Instr)

/-- The number of bytes of the instruction, opcode included (R63); 1 for an unused code, whose length is unknown and
of which no further byte is read (R70). -/
def OpForm.length : OpForm → Nat
  | .unused => 1
  | .bare _ => 1
  | .takesByte _ => 2
  | .takesWord _ => 3

/-- Group 00 (R61, R68): `y` is bits 5:3, `z` bits 2:0. -/
def decodeGroup0 (y z : BitVec 3) : OpForm :=
  match z.toNat with
  | 0 => match y.toNat with
    | 0 => .bare .nop
    | _ => .unused
  | 1 => match y.toNat with
    | 0 => .takesWord (.lxi .bc) | 1 => .bare (.dad .bc)
    | 2 => .takesWord (.lxi .de) | 3 => .bare (.dad .de)
    | 4 => .takesWord (.lxi .hl) | 5 => .bare (.dad .hl)
    | 6 => .takesWord (.lxi .sp) | _ => .bare (.dad .sp)
  | 2 => match y.toNat with
    | 0 => .bare (.stax .bc) | 1 => .bare (.ldax .bc)
    | 2 => .bare (.stax .de) | 3 => .bare (.ldax .de)
    | 4 => .takesWord .shld | 5 => .takesWord .lhld
    | 6 => .takesWord .sta | _ => .takesWord .lda
  | 3 => match y.toNat with
    | 0 => .bare (.inx .bc) | 1 => .bare (.dcx .bc)
    | 2 => .bare (.inx .de) | 3 => .bare (.dcx .de)
    | 4 => .bare (.inx .hl) | 5 => .bare (.dcx .hl)
    | 6 => .bare (.inx .sp) | _ => .bare (.dcx .sp)
  | 4 => .bare (.inr (.ofCode y))
  | 5 => .bare (.dcr (.ofCode y))
  | 6 => .takesByte (.mvi (.ofCode y))
  | _ => match y.toNat with
    | 0 => .bare .rlc | 1 => .bare .rrc | 2 => .bare .ral | 3 => .bare .rar
    | 4 => .bare .daa | 5 => .bare .cma | 6 => .bare .stc | _ => .bare .cmc

/-- Group 01: MOV, but for 76h, which is HLT (R67). -/
def decodeGroup1 (y z : BitVec 3) : OpForm :=
  if y = 6 ∧ z = 6 then .bare .hlt else .bare (.mov (.ofCode y) (.ofCode z))

/-- Group 10: the eight ALU operations with a register or M (R61). -/
def decodeGroup2 (y z : BitVec 3) : OpForm :=
  match y.toNat with
  | 0 => .bare (.add (.ofCode z)) | 1 => .bare (.adc (.ofCode z))
  | 2 => .bare (.sub (.ofCode z)) | 3 => .bare (.sbb (.ofCode z))
  | 4 => .bare (.ana (.ofCode z)) | 5 => .bare (.xra (.ofCode z))
  | 6 => .bare (.ora (.ofCode z)) | _ => .bare (.cmp (.ofCode z))

/-- Group 11 (R61, R68). -/
def decodeGroup3 (y z : BitVec 3) : OpForm :=
  match z.toNat with
  | 0 => match y.toNat with
    | 0 => .bare .rnz | 1 => .bare .rz | 2 => .bare .rnc | 3 => .bare .rc
    | 4 => .bare .rpo | 5 => .bare .rpe | 6 => .bare .rp | _ => .bare .rm
  | 1 => match y.toNat with
    | 0 => .bare (.pop .bc) | 1 => .bare .ret
    | 2 => .bare (.pop .de) | 3 => .unused
    | 4 => .bare (.pop .hl) | 5 => .bare .pchl
    | 6 => .bare (.pop .psw) | _ => .bare .sphl
  | 2 => match y.toNat with
    | 0 => .takesWord .jnz | 1 => .takesWord .jz | 2 => .takesWord .jnc | 3 => .takesWord .jc
    | 4 => .takesWord .jpo | 5 => .takesWord .jpe | 6 => .takesWord .jp | _ => .takesWord .jm
  | 3 => match y.toNat with
    | 0 => .takesWord .jmp | 1 => .unused
    | 2 => .takesByte .outPort | 3 => .takesByte .inPort
    | 4 => .bare .xthl | 5 => .bare .xchg
    | 6 => .bare .di | _ => .bare .ei
  | 4 => match y.toNat with
    | 0 => .takesWord .cnz | 1 => .takesWord .cz | 2 => .takesWord .cnc | 3 => .takesWord .cc
    | 4 => .takesWord .cpo | 5 => .takesWord .cpe | 6 => .takesWord .cp | _ => .takesWord .cm
  | 5 => match y.toNat with
    | 0 => .bare (.push .bc) | 1 => .takesWord .call
    | 2 => .bare (.push .de) | 4 => .bare (.push .hl) | 6 => .bare (.push .psw)
    | _ => .unused
  | 6 => match y.toNat with
    | 0 => .takesByte .adi | 1 => .takesByte .aci | 2 => .takesByte .sui | 3 => .takesByte .sbi
    | 4 => .takesByte .ani | 5 => .takesByte .xri | 6 => .takesByte .ori | _ => .takesByte .cpi
  | _ => .bare (.rst y)

/-- What an opcode byte stands for (R60, R67 to R70). -/
def decodeOpcode (op : Byte) : OpForm :=
  match (fieldX op).toNat with
  | 0 => decodeGroup0 (fieldY op) (fieldZ op)
  | 1 => decodeGroup1 (fieldY op) (fieldZ op)
  | 2 => decodeGroup2 (fieldY op) (fieldZ op)
  | _ => decodeGroup3 (fieldY op) (fieldZ op)

/-- Why a list of bytes is no instruction. -/
inductive DecodeError where
  /-- There is no byte at all. -/
  | noByte
  /-- The first byte is one of the 12 unused opcodes (R70). -/
  | unusedOpcode (op : Byte)
  /-- The list ends before the operand bytes the opcode takes. -/
  | missingOperand (op : Byte)
deriving DecidableEq, Repr

/-- The instruction at the head of a list of bytes, with the bytes after it (R60, R63, R65). -/
def decode : List Byte → Except DecodeError (Instr × List Byte)
  | [] => .error .noByte
  | op :: rest =>
    match decodeOpcode op with
    | .unused => .error (.unusedOpcode op)
    | .bare i => .ok (i, rest)
    | .takesByte f => match rest with
      | b2 :: rest => .ok (f b2, rest)
      | [] => .error (.missingOperand op)
    | .takesWord f => match rest with
      | b2 :: b3 :: rest => .ok (f (joinBytes b3 b2), rest)
      | _ => .error (.missingOperand op)

/-- The three bytes of a table word: bit 0 of `w` is bit 0 of the first byte, and every bit above `nbits` is 0. -/
def tableBytes (nbits w : Nat) : List Byte :=
  let v := w % 2 ^ nbits
  [BitVec.ofNat 8 v, BitVec.ofNat 8 (v / 2 ^ 8), BitVec.ofNat 8 (v / 2 ^ 16)]

/-- The instruction the decoder reads from a word numbered as spec/opcode_table.json numbers its bits. -/
def decodeTableWord (nbits w : Nat) : Option Instr :=
  match decode (tableBytes nbits w) with
  | .ok (i, _) => some i
  | .error _ => none

/-! The encoder, from the same tables (R62, R69). -/

/-- Opcode `xx pp q zzz` of an instruction with a pair field (R62, format д and л). -/
def pairOpcode (x : BitVec 2) (p : BitVec 2) (q : BitVec 1) (z : BitVec 3) : Byte := opcodeOf x (p ++ q) z

/-- An instruction of three bytes: opcode, low byte, high byte (R65). -/
def wordForm (op : Byte) (w : Addr) : List Byte := [op, lowByte w, highByte w]

/-- The bytes of an instruction, opcode first (R60, R69). -/
def encode : Instr → List Byte
  | .mov dst src => [opcodeOf 1 dst.code src.code]
  | .mvi dst v => [opcodeOf 0 dst.code 6, v]
  | .lxi p v => wordForm (pairOpcode 0 p.code 0 1) v
  | .lda w => wordForm 0x3A w
  | .sta w => wordForm 0x32 w
  | .lhld w => wordForm 0x2A w
  | .shld w => wordForm 0x22 w
  | .ldax p => [pairOpcode 0 p.code 1 2]
  | .stax p => [pairOpcode 0 p.code 0 2]
  | .xchg => [0xEB]
  | .add r => [opcodeOf 2 0 r.code]
  | .adi v => [0xC6, v]
  | .adc r => [opcodeOf 2 1 r.code]
  | .aci v => [0xCE, v]
  | .sub r => [opcodeOf 2 2 r.code]
  | .sui v => [0xD6, v]
  | .sbb r => [opcodeOf 2 3 r.code]
  | .sbi v => [0xDE, v]
  | .inr dst => [opcodeOf 0 dst.code 4]
  | .dcr dst => [opcodeOf 0 dst.code 5]
  | .inx p => [pairOpcode 0 p.code 0 3]
  | .dcx p => [pairOpcode 0 p.code 1 3]
  | .dad p => [pairOpcode 0 p.code 1 1]
  | .daa => [0x27]
  | .ana r => [opcodeOf 2 4 r.code]
  | .ani v => [0xE6, v]
  | .xra r => [opcodeOf 2 5 r.code]
  | .xri v => [0xEE, v]
  | .ora r => [opcodeOf 2 6 r.code]
  | .ori v => [0xF6, v]
  | .cmp r => [opcodeOf 2 7 r.code]
  | .cpi v => [0xFE, v]
  | .rlc => [0x07]
  | .rrc => [0x0F]
  | .ral => [0x17]
  | .rar => [0x1F]
  | .cma => [0x2F]
  | .cmc => [0x3F]
  | .stc => [0x37]
  | .jmp w => wordForm 0xC3 w
  | .jnz w => wordForm (opcodeOf 3 (Cond.nz).code 2) w
  | .jz w => wordForm (opcodeOf 3 (Cond.z).code 2) w
  | .jnc w => wordForm (opcodeOf 3 (Cond.nc).code 2) w
  | .jc w => wordForm (opcodeOf 3 (Cond.c).code 2) w
  | .jpo w => wordForm (opcodeOf 3 (Cond.po).code 2) w
  | .jpe w => wordForm (opcodeOf 3 (Cond.pe).code 2) w
  | .jp w => wordForm (opcodeOf 3 (Cond.p).code 2) w
  | .jm w => wordForm (opcodeOf 3 (Cond.m).code 2) w
  | .call w => wordForm 0xCD w
  | .cnz w => wordForm (opcodeOf 3 (Cond.nz).code 4) w
  | .cz w => wordForm (opcodeOf 3 (Cond.z).code 4) w
  | .cnc w => wordForm (opcodeOf 3 (Cond.nc).code 4) w
  | .cc w => wordForm (opcodeOf 3 (Cond.c).code 4) w
  | .cpo w => wordForm (opcodeOf 3 (Cond.po).code 4) w
  | .cpe w => wordForm (opcodeOf 3 (Cond.pe).code 4) w
  | .cp w => wordForm (opcodeOf 3 (Cond.p).code 4) w
  | .cm w => wordForm (opcodeOf 3 (Cond.m).code 4) w
  | .ret => [0xC9]
  | .rnz => [opcodeOf 3 (Cond.nz).code 0]
  | .rz => [opcodeOf 3 (Cond.z).code 0]
  | .rnc => [opcodeOf 3 (Cond.nc).code 0]
  | .rc => [opcodeOf 3 (Cond.c).code 0]
  | .rpo => [opcodeOf 3 (Cond.po).code 0]
  | .rpe => [opcodeOf 3 (Cond.pe).code 0]
  | .rp => [opcodeOf 3 (Cond.p).code 0]
  | .rm => [opcodeOf 3 (Cond.m).code 0]
  | .rst n => [opcodeOf 3 n 7]
  | .pchl => [0xE9]
  | .push p => [pairOpcode 3 p.code 0 5]
  | .pop p => [pairOpcode 3 p.code 0 1]
  | .xthl => [0xE3]
  | .sphl => [0xF9]
  | .inPort n => [0xDB, n]
  | .outPort n => [0xD3, n]
  | .ei => [0xFB]
  | .di => [0xF3]
  | .hlt => [0x76]
  | .nop => [0x00]

end Sys2Proof
end

