-- ==== Sys2Proof/Machine/Fetch.lean ====
section
/-! DEFINITION. Fetching an instruction's bytes (R64, R65, R243), and placing bytes where the fetch finds them. -/

namespace Sys2Proof.Machine

open Sys2Proof.Config

/-- `Fetch8()`: the byte at PC, PC becomes PC+1 modulo 2^16 (R64, D3). -/
def fetch8 (s : State) : Byte × State :=
  let r := memRead s.pc s
  (r.1, r.2.setPc (s.pc + 1))

/-- `Fetch16()`: the low byte, then the high byte (R65). -/
def fetch16 (s : State) : Addr × State :=
  let lo := fetch8 s
  let hi := fetch8 lo.2
  (joinBytes hi.1 lo.1, hi.2)

/-- The instruction at PC and the state with PC past it, or the unused opcode found there (R60, R243; log 24). -/
def fetchInstr (s : State) : Except Byte (Instr × State) :=
  let r := fetch8 s
  match decodeOpcode r.1 with
  | .unused => .error r.1
  | .bare i => .ok (i, r.2)
  | .takesByte f =>
    let b2 := fetch8 r.2
    .ok (f b2.1, b2.2)
  | .takesWord f =>
    let w := fetch16 r.2
    .ok (f w.1, w.2)

/-- The byte stored at an address from outside the machine; an address whose reads do not answer with stored bytes
becomes RAM (log 23). -/
def placeByte (s : State) (addr : Addr) (v : Byte) : State :=
  let t := s.setMem (Memory.write s.mem addr.toNat v)
  match kindAt s.memMap addr with
  | .ram => t
  | .rom => t
  | .absent => t.setMemMap ({ base := addr.toNat, size := 1, kind := .ram } :: s.memMap)
  | .device => t.setMemMap ({ base := addr.toNat, size := 1, kind := .ram } :: s.memMap)

/-- Bytes placed at ascending addresses from `addr` on. -/
def placeBytes (s : State) (addr : Addr) (bytes : List Byte) : State :=
  match bytes with
  | [] => s
  | v :: rest => placeBytes (placeByte s addr v) (addr + 1) rest

end Sys2Proof.Machine
end

