-- ==== Sys2Proof/Machine/Step.lean ====
section
/-! DEFINITION. One step of the machine (R243), and the placing of an instruction where the next step fetches it. -/

namespace Sys2Proof.Machine

/-- `Step()`: unless halted, fetch, decode and execute one instruction; then the acceptance check (R243). -/
def step (s : State) : Host.Outcome State Fault Refusal :=
  if s.halted then interruptCheck s
  else
    match fetchInstr s with
    | .error op => .fault (.illegalOpcode op)
    | .ok (i, s1) =>
      match exec i s1 with
      | .next s2 => interruptCheck s2
      | .fault f => .fault f
      | .refused r => .refused r

/-- The state with an instruction, numbered as spec/opcode_table.json numbers its bits, at PC, and not halted, so that
the next step runs it (log 23). -/
def State.withFetchWord (s : State) (nbits w : Nat) : State :=
  placeBytes (s.setHalted false) s.pc (tableBytes nbits w)

end Sys2Proof.Machine
end

