-- ==== Sys2Proof/Safety.lean ====
section
/-! DEFINITION. The terms claims are stated in: the invariant of reachable states, final states, and whether an outcome
is a next state. -/

namespace Sys2Proof.Machine

/-- The next state of an outcome, if it is one. -/
def nextState (r : Result) : Option State :=
  match r with
  | .next s => some s
  | _ => none

/-- What holds at reset and is kept by every step: memory in its canonical form (R40), EIWAIT at most EiDelay + 1 (R220,
R243), and EIWAIT zero while interrupts are disabled (R220, R221, R244, R270). -/
def State.Inv (s : State) : Prop :=
  Memory.wf s.mem = true ∧ s.eiWait ≤ eiDelayOf s.params.eiDelay + 1 ∧ (s.inte = false → s.eiWait = 0)

/-- The premise that the interrupt source never requests again (R249). -/
def NeverRequests (src : IntSource) : Prop := ∀ k, answerAt k src = none

/-- The end of a run: halted, with interrupts disabled or with a source that never requests again (R230, R249). -/
def State.Final (s : State) : Prop := s.halted = true ∧ (s.inte = false ∨ NeverRequests s.intSource)

end Sys2Proof.Machine
end

