-- ==== Sys2Proof/WellFormed.lean ====
section
/-! DEFINITION. Which terms of `Instr` are instructions of the 8080. The types of the operands carry every other
limit of the encodings; the one left is MOV M,M, which does not exist (R67, R80). -/

namespace Sys2Proof

/-- "Every combination except M,M" (R80): 76h, the code MOV M,M would have, is HLT. -/
def Instr.wellFormed : Instr → Bool
  | .mov .m .m => false
  | _ => true

end Sys2Proof
end

