-- ==== Sys2Proof/Certificates/Slice0/Obligations.lean ====
section
/-! DEFINITION. The statements for the provers, with the tables of the spec's rules they are stated in. -/

namespace Sys2Proof.Spec

open Sys2Proof.Machine Sys2Proof.Config

/-! The vocabulary of the statements, written from the rules and not from the meanings. -/

/-- Reads at the address answer with stored bytes (RAM or ROM, D13). -/
def storedAt (s : State) (addr : Addr) : Prop := kindAt s.memMap addr = .ram ∨ kindAt s.memMap addr = .rom

/-- Reads at the address answer with stored bytes and writes are stored (RAM, D13). -/
def ramAt (s : State) (addr : Addr) : Prop := kindAt s.memMap addr = .ram

/-- The 12 unused opcodes (R70). -/
def unusedOpcodes : List Byte := [0x08, 0x10, 0x18, 0x20, 0x28, 0x30, 0x38, 0xCB, 0xD9, 0xDD, 0xED, 0xFD]

/-- The opcodes of three bytes, as R63 lists them. -/
def threeByteOpcodes : List Byte :=
  [0x01, 0x11, 0x21, 0x31, 0x22, 0x2A, 0x32, 0x3A, 0xC3,
   0xC2, 0xCA, 0xD2, 0xDA, 0xE2, 0xEA, 0xF2, 0xFA, 0xCD,
   0xC4, 0xCC, 0xD4, 0xDC, 0xE4, 0xEC, 0xF4, 0xFC]

/-- The opcodes of two bytes, as R63 lists them. -/
def twoByteOpcodes : List Byte :=
  [0x06, 0x0E, 0x16, 0x1E, 0x26, 0x2E, 0x36, 0x3E,
   0xC6, 0xCE, 0xD6, 0xDE, 0xE6, 0xEE, 0xF6, 0xFE, 0xD3, 0xDB]

/-- S, Z and P describe the result: its bit 7, whether it is zero, an even number of 1 bits (R20, R21, R23). -/
def SzpOf (x : Byte) (f : Flags) : Prop :=
  (f.s = true ↔ 128 ≤ x.toNat) ∧ (f.z = true ↔ x.toNat = 0) ∧
  (f.p = true ↔ Even (Finset.univ.filter fun k : Fin 8 => x.getLsbD k = true).card)

/-- The sum and its flags (R100). -/
def AddResult (a v : Byte) (cin : Bool) (x : Byte) (f : Flags) : Prop :=
  x.toNat = (a.toNat + v.toNat + cin.toNat) % 256 ∧
  (f.cy = true ↔ 255 < a.toNat + v.toNat + cin.toNat) ∧
  (f.ac = true ↔ 15 < a.toNat % 16 + v.toNat % 16 + cin.toNat) ∧ SzpOf x f

/-- The difference and its flags, CY being the borrow and AC either "no borrow from bit 4" or "borrow from bit 4" as
the parameter `AuxSub` says (R101, D5). -/
def SubResult (mode : AuxSub) (a v : Byte) (bin : Bool) (x : Byte) (f : Flags) : Prop :=
  (x.toNat : Int) = ((a.toNat : Int) - v.toNat - bin.toNat) % 256 ∧
  (f.cy = true ↔ a.toNat < v.toNat + bin.toNat) ∧
  (match mode with
    | .complementCarry => (f.ac = true ↔ v.toNat % 16 + bin.toNat ≤ a.toNat % 16)
    | .borrow => (f.ac = true ↔ a.toNat % 16 < v.toNat % 16 + bin.toNat)) ∧ SzpOf x f

/-- The truth of a condition, flag by flag (R160). -/
def CondTrue : Cond → Flags → Prop
  | .nz, f => f.z = false
  | .z, f => f.z = true
  | .nc, f => f.cy = false
  | .c, f => f.cy = true
  | .po, f => f.p = false
  | .pe, f => f.p = true
  | .p, f => f.s = false
  | .m, f => f.s = true

/-- The conditional jump of a condition (R163 to R170). -/
def jumpOn : Cond → Addr → Instr
  | .nz => .jnz | .z => .jz | .nc => .jnc | .c => .jc | .po => .jpo | .pe => .jpe | .p => .jp | .m => .jm

/-- The conditional call of a condition (R173 to R180). -/
def callOn : Cond → Addr → Instr
  | .nz => .cnz | .z => .cz | .nc => .cnc | .c => .cc | .po => .cpo | .pe => .cpe | .p => .cp | .m => .cm

/-- The conditional return of a condition (R183 to R190). -/
def returnOn : Cond → Instr
  | .nz => .rnz | .z => .rz | .nc => .rnc | .c => .rc | .po => .rpo | .pe => .rpe | .p => .rp | .m => .rm

/-- The registers of a pair (R11); SP is none of the 8-bit registers. -/
def pairRegisters : RegPair → List Operand8
  | .bc => [.b, .c] | .de => [.d, .e] | .hl => [.h, .l] | .sp => []

/-- The 8-bit registers of a pair of PUSH and POP (R11). -/
def stackPairRegisters : StackPair → List Operand8
  | .bc => [.b, .c] | .de => [.d, .e] | .hl => [.h, .l] | .psw => [.a]

/-- The 8-bit registers an instruction may write (the operand line and pseudocode of each rule, R80 to R231). -/
def destinations : Instr → List Operand8
  | .mov dst _ | .mvi dst _ | .inr dst | .dcr dst => [dst]
  | .lxi p _ | .inx p | .dcx p => pairRegisters p
  | .pop p => stackPairRegisters p
  | .lhld _ | .dad _ | .xthl => [.h, .l]
  | .xchg => [.d, .e, .h, .l]
  | .lda _ | .ldax _ | .inPort _
  | .add _ | .adi _ | .adc _ | .aci _ | .sub _ | .sui _ | .sbb _ | .sbi _ | .daa
  | .ana _ | .ani _ | .xra _ | .xri _ | .ora _ | .ori _ | .rlc | .rrc | .ral | .rar | .cma => [.a]
  | .sta _ | .shld _ | .stax _ | .cmp _ | .cpi _ | .cmc | .stc
  | .jmp _ | .jnz _ | .jz _ | .jnc _ | .jc _ | .jpo _ | .jpe _ | .jp _ | .jm _
  | .call _ | .cnz _ | .cz _ | .cnc _ | .cc _ | .cpo _ | .cpe _ | .cp _ | .cm _
  | .ret | .rnz | .rz | .rnc | .rc | .rpo | .rpe | .rp | .rm | .rst _ | .pchl
  | .push _ | .sphl | .outPort _ | .ei | .di | .hlt | .nop => []

/-- The instructions that may write SP (R17). -/
def writesSp : Instr → Bool
  | .lxi p _ | .inx p | .dcx p => decide (p = .sp)
  | .call _ | .cnz _ | .cz _ | .cnc _ | .cc _ | .cpo _ | .cpe _ | .cp _ | .cm _
  | .ret | .rnz | .rz | .rnc | .rc | .rpo | .rpe | .rp | .rm | .rst _
  | .push _ | .pop _ | .sphl => true
  | .mov _ _ | .mvi _ _ | .lda _ | .sta _ | .lhld _ | .shld _ | .ldax _ | .stax _ | .xchg
  | .add _ | .adi _ | .adc _ | .aci _ | .sub _ | .sui _ | .sbb _ | .sbi _ | .inr _ | .dcr _ | .dad _ | .daa
  | .ana _ | .ani _ | .xra _ | .xri _ | .ora _ | .ori _ | .cmp _ | .cpi _ | .rlc | .rrc | .ral | .rar
  | .cma | .cmc | .stc | .jmp _ | .jnz _ | .jz _ | .jnc _ | .jc _ | .jpo _ | .jpe _ | .jp _ | .jm _ | .pchl
  | .xthl | .inPort _ | .outPort _ | .ei | .di | .hlt | .nop => false

/-- The instructions that may write PC beyond the increments of their fetch (R15). -/
def writesPc : Instr → Bool
  | .jmp _ | .jnz _ | .jz _ | .jnc _ | .jc _ | .jpo _ | .jpe _ | .jp _ | .jm _
  | .call _ | .cnz _ | .cz _ | .cnc _ | .cc _ | .cpo _ | .cpe _ | .cp _ | .cm _
  | .ret | .rnz | .rz | .rnc | .rc | .rpo | .rpe | .rp | .rm | .rst _ | .pchl => true
  | .mov _ _ | .mvi _ _ | .lxi _ _ | .lda _ | .sta _ | .lhld _ | .shld _ | .ldax _ | .stax _ | .xchg
  | .add _ | .adi _ | .adc _ | .aci _ | .sub _ | .sui _ | .sbb _ | .sbi _ | .inr _ | .dcr _
  | .inx _ | .dcx _ | .dad _ | .daa
  | .ana _ | .ani _ | .xra _ | .xri _ | .ora _ | .ori _ | .cmp _ | .cpi _ | .rlc | .rrc | .ral | .rar
  | .cma | .cmc | .stc | .push _ | .pop _ | .xthl | .sphl | .inPort _ | .outPort _ | .ei | .di | .hlt | .nop => false

/-- The addresses of the two bytes a push stores to (R45). -/
def pushAddrs (s : State) : List Addr := [s.sp - 1, s.sp - 2]

/-- A device answers at the address and sees every cycle there (D13). -/
def isDevice (s : State) (addr : Addr) : Prop := kindAt s.memMap addr = .device

/-- What devices below the stack pointer see of a push: the high byte to SP-1, then the low byte to SP-2 (R44). -/
def pushEvents (s : State) (w : Addr) : List BusEvent :=
  [.memWrite (s.sp - 1) (highByte w), .memWrite (s.sp - 2) (lowByte w)]

/-- The addresses a conditional call stores to (R172). -/
def pushAddrsIf (cond : Bool) (s : State) : List Addr := if cond then pushAddrs s else []

/-- The address a write to an 8-bit operand stores to (R13). -/
def operandAddrs (r : Operand8) (s : State) : List Addr := if r = .m then [s.hl] else []

/-- The addresses an instruction stores to, started in `s` (R50). -/
def storeAddrs (i : Instr) (s : State) : List Addr :=
  match i with
  | .mov dst _ | .mvi dst _ | .inr dst | .dcr dst => operandAddrs dst s
  | .sta addr => [addr]
  | .shld addr => [addr, addr + 1]
  | .stax p => [indexAddr p s]
  | .push _ | .rst _ | .call _ => pushAddrs s
  | .cnz _ => pushAddrsIf (condHolds .nz s.flags) s
  | .cz _ => pushAddrsIf (condHolds .z s.flags) s
  | .cnc _ => pushAddrsIf (condHolds .nc s.flags) s
  | .cc _ => pushAddrsIf (condHolds .c s.flags) s
  | .cpo _ => pushAddrsIf (condHolds .po s.flags) s
  | .cpe _ => pushAddrsIf (condHolds .pe s.flags) s
  | .cp _ => pushAddrsIf (condHolds .p s.flags) s
  | .cm _ => pushAddrsIf (condHolds .m s.flags) s
  | .xthl => [s.sp, s.sp + 1]
  | .lxi _ _ | .lda _ | .lhld _ | .ldax _ | .xchg
  | .add _ | .adi _ | .adc _ | .aci _ | .sub _ | .sui _ | .sbb _ | .sbi _ | .inx _ | .dcx _ | .dad _ | .daa
  | .ana _ | .ani _ | .xra _ | .xri _ | .ora _ | .ori _ | .cmp _ | .cpi _ | .rlc | .rrc | .ral | .rar
  | .cma | .cmc | .stc | .jmp _ | .jnz _ | .jz _ | .jnc _ | .jc _ | .jpo _ | .jpe _ | .jp _ | .jm _
  | .ret | .rnz | .rz | .rnc | .rc | .rpo | .rpe | .rp | .rm | .pchl
  | .pop _ | .sphl | .inPort _ | .outPort _ | .ei | .di | .hlt | .nop => []

/-- The names of the five flags (R18). -/
inductive FlagName where
  | s | z | ac | p | cy
deriving DecidableEq, Repr

/-- The value of a flag by name. -/
def flagOf (f : Flags) : FlagName → Bool
  | .s => f.s | .z => f.z | .ac => f.ac | .p => f.p | .cy => f.cy

/-- The flags an instruction writes, as the table of R30 lists them. -/
def flagsWritten : Instr → List FlagName
  | .add _ | .adc _ | .sub _ | .sbb _ | .adi _ | .aci _ | .sui _ | .sbi _ | .cmp _ | .cpi _ | .daa
  | .ana _ | .ani _ | .xra _ | .xri _ | .ora _ | .ori _ => [.s, .z, .ac, .p, .cy]
  | .inr _ | .dcr _ => [.s, .z, .ac, .p]
  | .dad _ | .rlc | .rrc | .ral | .rar | .stc | .cmc => [.cy]
  | .pop p => if p = .psw then [.s, .z, .ac, .p, .cy] else []
  | .mov _ _ | .mvi _ _ | .lxi _ _ | .lda _ | .sta _ | .lhld _ | .shld _ | .ldax _ | .stax _ | .xchg
  | .inx _ | .dcx _ | .cma
  | .jmp _ | .jnz _ | .jz _ | .jnc _ | .jc _ | .jpo _ | .jpe _ | .jp _ | .jm _
  | .call _ | .cnz _ | .cz _ | .cnc _ | .cc _ | .cpo _ | .cpe _ | .cp _ | .cm _
  | .ret | .rnz | .rz | .rnc | .rc | .rpo | .rpe | .rp | .rm | .rst _ | .pchl
  | .push _ | .xthl | .sphl | .inPort _ | .outPort _ | .ei | .di | .hlt | .nop => []

/-- The flags an instruction reads, as R30 lists them. -/
def flagsRead : Instr → List FlagName
  | .jnz _ | .jz _ | .jnc _ | .jc _ | .jpo _ | .jpe _ | .jp _ | .jm _
  | .cnz _ | .cz _ | .cnc _ | .cc _ | .cpo _ | .cpe _ | .cp _ | .cm _
  | .rnz | .rz | .rnc | .rc | .rpo | .rpe | .rp | .rm => [.s, .z, .p, .cy]
  | .adc _ | .aci _ | .sbb _ | .sbi _ | .ral | .rar | .cmc => [.cy]
  | .daa => [.ac, .cy]
  | .push p => if p = .psw then [.s, .z, .ac, .p, .cy] else []
  | .mov _ _ | .mvi _ _ | .lxi _ _ | .lda _ | .sta _ | .lhld _ | .shld _ | .ldax _ | .stax _ | .xchg
  | .add _ | .adi _ | .sub _ | .sui _ | .inr _ | .dcr _ | .inx _ | .dcx _ | .dad _
  | .ana _ | .ani _ | .xra _ | .xri _ | .ora _ | .ori _ | .cmp _ | .cpi _ | .rlc | .rrc | .cma | .stc
  | .jmp _ | .call _ | .ret | .rst _ | .pchl
  | .pop _ | .xthl | .sphl | .inPort _ | .outPort _ | .ei | .di | .hlt | .nop => []

/-- Two settings of the flags agree on the named flags. -/
def agreeOn (names : List FlagName) (f g : Flags) : Prop := ∀ n ∈ names, flagOf f n = flagOf g n

/-- Both digits of a byte are decimal. -/
def bcdValid (v : Byte) : Prop := v.toNat % 16 ≤ 9 ∧ v.toNat / 16 ≤ 9

/-- The two-digit number a packed decimal byte stands for. -/
def bcdValue (v : Byte) : Nat := 10 * (v.toNat / 16) + v.toNat % 16

/-- Whether the default body of R116 adds 06h: low digit above 9, or AC. -/
def daaLow (a : Byte) (ac : Bool) : Prop := 9 < a.toNat % 16 ∨ ac = true

/-- Whether the default body of R116 adds 60h: high digit above 9, or CY, or high digit 9 and low digit above 9. -/
def daaHigh (a : Byte) (cy : Bool) : Prop :=
  9 < a.toNat / 16 ∨ cy = true ∨ (9 ≤ a.toNat / 16 ∧ 9 < a.toNat % 16)

/-- The registers, flags, SP, PC, INTE, HALTED, memory, map, parameters and the platform's bytes and trace agree:
everything but the interrupt source's answers and EIWAIT. -/
def sameButInterruptSource (s t : State) : Prop :=
  t = { s with intSource := t.intSource, eiWait := t.eiWait }

end Sys2Proof.Spec

open Sys2Proof Sys2Proof.Machine Sys2Proof.Config Sys2Proof.Spec

/-! ## Encoding -/

/-- Decoding the bytes of a well-formed instruction gives it back, with whatever follows it (R60, R69). -/
def Obligations.DecodeOfEncodeIsTheInstruction : Prop :=
  ∀ (i : Instr) (rest : List Byte), i.wellFormed = true → decode (encode i ++ rest) = .ok (i, rest)

/-- Whatever decodes is a well-formed instruction, and the bytes it was read from are its encoding: no instruction has
two encodings (R60, R68). -/
def Obligations.EncodeOfDecodeIsTheBytes : Prop :=
  ∀ (bytes rest : List Byte) (i : Instr), decode bytes = .ok (i, rest) →
    bytes = encode i ++ rest ∧ i.wellFormed = true

/-- The length of an instruction by its opcode, exactly as R63 lists the opcodes. -/
def Obligations.LengthIsDecidedByOpcode : Prop :=
  ∀ (op : Byte) (bytes rest : List Byte) (i : Instr), decode (op :: bytes) = .ok (i, rest) →
    (op :: bytes).length = rest.length +
      (if op ∈ threeByteOpcodes then 3 else if op ∈ twoByteOpcodes then 2 else 1)

/-- The decoder refuses an opcode by name exactly when it is one of the twelve R70 lists; the other 244 decode. -/
def Obligations.TwelveOpcodesAreUnused : Prop :=
  ∀ op b2 b3 : Byte,
    (decode [op, b2, b3] = .error (.unusedOpcode op) ↔ op ∈ unusedOpcodes) ∧
    (op ∉ unusedOpcodes → ∃ i rest, decode [op, b2, b3] = .ok (i, rest))

/-- Words written out from the spec's encodings, several of each family, decode to the instruction named
(R69, 95_test_vectors.md section 1.1). -/
def Obligations.SampleWordsDecode : Prop :=
  decode [0b01100111] = .ok (.mov .h .a, []) ∧
  decode [0b00010001, 0xCD, 0xAB] = .ok (.lxi .de 0xABCD, []) ∧
  decode [0b10000001] = .ok (.add .c, []) ∧
  decode [0b00111011] = .ok (.dcx .sp, []) ∧
  decode [0b10111010] = .ok (.cmp .d, []) ∧
  decode [0b11000010, 0xC5, 0x9F] = .ok (.jnz 0x9FC5, []) ∧
  decode [0b11110111] = .ok (.rst 6, []) ∧
  decode [0b11110101] = .ok (.push .psw, []) ∧
  decode [0b11011011, 0x2A] = .ok (.inPort 0x2A, []) ∧
  decode [0b11111011] = .ok (.ei, []) ∧
  decode [0b01110110] = .ok (.hlt, []) ∧
  decode [0b10010010] = .ok (.sub .d, []) ∧ decode [0b11010110, 0xD2] = .ok (.sui 0xD2, []) ∧
  decode [0b10011100] = .ok (.sbb .h, []) ∧ decode [0b11011110, 0x79] = .ok (.sbi 0x79, []) ∧
  decode [0b00101101] = .ok (.dcr .l, []) ∧ decode [0b00000011] = .ok (.inx .bc, []) ∧
  decode [0b00100111] = .ok (.daa, []) ∧ decode [0b10100010] = .ok (.ana .d, []) ∧
  decode [0b11111110, 0xD9] = .ok (.cpi 0xD9, []) ∧ decode [0b11001101, 0xD2, 0xB7] = .ok (.call 0xB7D2, []) ∧
  decode [0b11010101] = .ok (.push .de, []) ∧ decode [0b11100001] = .ok (.pop .hl, []) ∧
  decode [0b11100011] = .ok (.xthl, []) ∧ decode [0b11010011, 0xC7] = .ok (.outPort 0xC7, []) ∧
  decode [0b11110011] = .ok (.di, [])

/-! ## The step -/

/-- When the bytes at PC are stored bytes and decode to an instruction, the step is `exec` of it with PC past the
instruction, followed by the acceptance check (R15, R64, R243). -/
def Obligations.StepRunsTheDecodedInstruction : Prop :=
  ∀ (s : State) (i : Instr) (rest : List Byte), s.halted = false →
    decode [s.byteAt s.pc, s.byteAt (s.pc + 1), s.byteAt (s.pc + 2)] = .ok (i, rest) →
    (∀ k, k < (encode i).length → storedAt s (s.pc + BitVec.ofNat 16 k)) →
    step s = (match exec i (s.setPc (s.pc + BitVec.ofNat 16 (encode i).length)) with
      | .next t => interruptCheck t
      | .fault f => .fault f
      | .refused r => .refused r)

/-- Fetching one of the twelve unused opcodes stops the step with IllegalOpcode. That this is a fault of the model and
no event of the processor is the spec's own decision D8 (log 13). -/
def Obligations.StepFaultsOnUnusedOpcode : Prop :=
  ∀ s : State, s.halted = false → storedAt s s.pc → s.byteAt s.pc ∈ unusedOpcodes →
    step s = .fault (.illegalOpcode (s.byteAt s.pc))

/-- A step stops for two reasons only: the opcode it fetched is unused, or the interrupt source supplied an opcode that
is not RST n (R240, R245; logs 9, 13). -/
def Obligations.StepStopsForTwoReasonsOnly : Prop :=
  ∀ s : State,
    (∃ t, step s = .next t) ∨
    (∃ op, op ∈ unusedOpcodes ∧ s.halted = false ∧ (fetch8 s).1 = op ∧ step s = .fault (.illegalOpcode op)) ∨
    (∃ op, rstNumber op = none ∧ (askSource s.intSource).1 = some op ∧
      step s = .refused (.interruptOpcodeNotRst op))

/-- No instruction traps, faults or aborts: every well-formed instruction has a next state in every state, and the one
ill-formed term, MOV M,M, is refused (R240; log 14). -/
def Obligations.EveryInstructionCompletes : Prop :=
  (∀ (i : Instr) (s : State), i.wellFormed = true → ∃ t, exec i s = .next t) ∧
  (∀ (i : Instr) (s : State), i.wellFormed = false → exec i s = .refused .movMemMem)

/-! ## Memory, ports and operands -/

/-- A memory read returns the byte the platform presents and changes no processor state; over RAM it returns the byte
last written (R41). -/
def Obligations.MemoryReadReturnsTheByteThere : Prop :=
  (∀ (addr : Addr) (s : State),
    (memRead addr s).2 = { s with
      busAnswers := (memRead addr s).2.busAnswers, draws := (memRead addr s).2.draws,
      events := (memRead addr s).2.events }) ∧
  (∀ (addr : Addr) (s : State), storedAt s addr → memRead addr s = (s.byteAt addr, s)) ∧
  (∀ (addr : Addr) (s : State) (v : Byte) (rest : List Byte), ¬ storedAt s addr → s.busAnswers = v :: rest →
    (memRead addr s).1 = v ∧ (memRead addr s).2.busAnswers = rest) ∧
  (∀ (addr : Addr) (s : State) (v : Byte), ramAt s addr → (memRead addr (memWrite addr v s)).1 = v)

/-- A memory write stores the byte in RAM and leaves every other byte; elsewhere it stores nothing, and raises nothing.
That ROM and absent cells ignore writes is the spec's decision D13, D20 (log 10). -/
def Obligations.MemoryWriteStoresInRamOnly : Prop :=
  ∀ (addr other : Addr) (v : Byte) (s : State),
    (ramAt s addr → (memWrite addr v s).byteAt addr = v) ∧
    (other ≠ addr → (memWrite addr v s).byteAt other = s.byteAt other) ∧
    (¬ ramAt s addr → (memWrite addr v s).byteAt other = s.byteAt other) ∧
    memWrite addr v s = { s with mem := (memWrite addr v s).mem, events := (memWrite addr v s).events }

/-- The operand accesses by code: the 3-bit code 6 is the memory byte at HL and the others the seven registers; a pair's
first-named register is its high byte; the pairs have the codes 00 to 11, and pair code 11 is SP in one set and A with the
flag byte in the other (R10, R11, R13, R14). -/
def Obligations.OperandAndPairCodes : Prop :=
  ∀ (s : State) (v : Byte) (w : Addr),
    (readOperand (.ofCode 0) s = (s.b, s) ∧ writeOperand (.ofCode 0) v s = { s with b := v } ∧
     readOperand (.ofCode 1) s = (s.c, s) ∧ writeOperand (.ofCode 1) v s = { s with c := v } ∧
     readOperand (.ofCode 2) s = (s.d, s) ∧ writeOperand (.ofCode 2) v s = { s with d := v } ∧
     readOperand (.ofCode 3) s = (s.e, s) ∧ writeOperand (.ofCode 3) v s = { s with e := v } ∧
     readOperand (.ofCode 4) s = (s.h, s) ∧ writeOperand (.ofCode 4) v s = { s with h := v } ∧
     readOperand (.ofCode 5) s = (s.l, s) ∧ writeOperand (.ofCode 5) v s = { s with l := v } ∧
     readOperand (.ofCode 6) s = memRead (joinBytes s.h s.l) s ∧
     writeOperand (.ofCode 6) v s = memWrite (joinBytes s.h s.l) v s ∧
     readOperand (.ofCode 7) s = (s.a, s) ∧ writeOperand (.ofCode 7) v s = { s with a := v }) ∧
    ((readPair .bc s).toNat = s.b.toNat * 256 + s.c.toNat ∧ (readPair .de s).toNat = s.d.toNat * 256 + s.e.toNat ∧
     (readPair .hl s).toNat = s.h.toNat * 256 + s.l.toNat ∧ readPair .sp s = s.sp ∧
     readStackPair .bc s = readPair .bc s ∧ readStackPair .de s = readPair .de s ∧
     readStackPair .hl s = readPair .hl s ∧
     (readStackPair .psw s).toNat = s.a.toNat * 256 + (flagByte s.flags).toNat) ∧
    ((∀ p, readPair p (writePair p w s) = w) ∧
     writePair .bc w s = { s with b := highByte w, c := lowByte w } ∧
     writePair .de w s = { s with d := highByte w, e := lowByte w } ∧
     writePair .hl w s = { s with h := highByte w, l := lowByte w } ∧ writePair .sp w s = { s with sp := w } ∧
     writeStackPair .bc w s = writePair .bc w s ∧ writeStackPair .de w s = writePair .de w s ∧
     writeStackPair .hl w s = writePair .hl w s ∧
     writeStackPair .psw w s = { s with a := highByte w, flags := flagsFromByte (lowByte w) }) ∧
    ([Operand8.b, .c, .d, .e, .h, .l, .m, .a].map Operand8.code = [0, 1, 2, 3, 4, 5, 6, 7] ∧
     [RegPair.bc, .de, .hl, .sp].map RegPair.code = [0, 1, 2, 3] ∧
     [StackPair.bc, .de, .hl, .psw].map StackPair.code = [0, 1, 2, 3] ∧
     [IndexPair.bc, .de].map IndexPair.code = [0, 1])

/-- The flag byte is S, Z, 0, AC, 0, P, 1, CY from bit 7 down; loading a byte takes five of its bits, so that storing it
again forces the other three. That the three bits are not state is the spec's decision D4 (log 17). -/
def Obligations.FlagByteLayout : Prop :=
  (∀ f : Flags,
    (flagByte f).getLsbD 7 = f.s ∧ (flagByte f).getLsbD 6 = f.z ∧ (flagByte f).getLsbD 5 = false ∧
    (flagByte f).getLsbD 4 = f.ac ∧ (flagByte f).getLsbD 3 = false ∧ (flagByte f).getLsbD 2 = f.p ∧
    (flagByte f).getLsbD 1 = true ∧ (flagByte f).getLsbD 0 = f.cy ∧ flagsFromByte (flagByte f) = f) ∧
  (∀ v : Byte, flagByte (flagsFromByte v) = (v &&& 0xD5) ||| 0x02)

/-! ## Data transfer -/

/-- MOV copies its source to its destination, for every pair of operands but M,M, whose code is HLT; the term MOV M,M is
refused (R80; log 14). -/
def Obligations.MovCopiesTheOperand : Prop :=
  ∀ (dst src : Operand8) (s : State) (rest : List Byte),
    (¬ (dst = .m ∧ src = .m) →
      decode (opcodeOf 0b01 dst.code src.code :: rest) = .ok (.mov dst src, rest) ∧
      exec (.mov dst src) s = .next (writeOperand dst (readOperand src s).1 (readOperand src s).2)) ∧
    decode (opcodeOf 0b01 (Operand8.m).code (Operand8.m).code :: rest) = .ok (.hlt, rest) ∧
    exec (.mov .m .m) s = .refused .movMemMem

/-- MVI loads its second byte into a register or M; LXI loads B2 into the low and B3 into the high register of the
pair, or B3:B2 into SP (R81, R82). -/
def Obligations.ImmediateLoads : Prop :=
  ∀ (dst : Operand8) (rp : RegPair) (b2 b3 : Byte) (s : State) (rest : List Byte),
    decode (opcodeOf 0b00 dst.code 0b110 :: b2 :: rest) = .ok (.mvi dst b2, rest) ∧
    exec (.mvi dst b2) s = .next (writeOperand dst b2 s) ∧
    decode (opcodeOf 0b00 (rp.code ++ 0#1) 0b001 :: b2 :: b3 :: rest) = .ok (.lxi rp (joinBytes b3 b2), rest) ∧
    exec (.lxi rp (joinBytes b3 b2)) s = .next (match rp with
      | .bc => { s with b := b3, c := b2 }
      | .de => { s with d := b3, e := b2 }
      | .hl => { s with h := b3, l := b2 }
      | .sp => { s with sp := joinBytes b3 b2 })

/-- LDA, STA, LDAX and STAX move one byte between A and the addressed cell (R83, R84, R87, R88). -/
def Obligations.AccumulatorLoadsAndStores : Prop :=
  ∀ (b2 b3 : Byte) (s : State) (rest : List Byte),
    (decode (0x3A :: b2 :: b3 :: rest) = .ok (.lda (joinBytes b3 b2), rest) ∧
     decode (0x32 :: b2 :: b3 :: rest) = .ok (.sta (joinBytes b3 b2), rest) ∧
     decode (0x0A :: rest) = .ok (.ldax .bc, rest) ∧ decode (0x1A :: rest) = .ok (.ldax .de, rest) ∧
     decode (0x02 :: rest) = .ok (.stax .bc, rest) ∧ decode (0x12 :: rest) = .ok (.stax .de, rest) ∧
     decode (0x2A :: b2 :: b3 :: rest) = .ok (.lhld (joinBytes b3 b2), rest) ∧
     decode (0x22 :: b2 :: b3 :: rest) = .ok (.shld (joinBytes b3 b2), rest)) ∧
    (∀ addr v t, memRead addr s = (v, t) →
      exec (.lda addr) s = .next { t with a := v } ∧
      (addr = joinBytes s.b s.c → exec (.ldax .bc) s = .next { t with a := v }) ∧
      (addr = joinBytes s.d s.e → exec (.ldax .de) s = .next { t with a := v })) ∧
    (∀ addr, exec (.sta addr) s = .next (memWrite addr s.a s)) ∧
    exec (.stax .bc) s = .next (memWrite (joinBytes s.b s.c) s.a s) ∧
    exec (.stax .de) s = .next (memWrite (joinBytes s.d s.e) s.a s)

/-- LHLD and SHLD move L at the address and H at the next one, modulo 2^16. The wrap at FFFFh is the spec's decision D2
(log 15). -/
def Obligations.HlLoadAndStore : Prop :=
  ∀ (addr : Addr) (s : State),
    (∃ t, exec (.lhld addr) s = .next t ∧
      (storedAt s addr → storedAt s (addr + 1) → t = { s with h := s.byteAt (addr + 1), l := s.byteAt addr })) ∧
    (∃ t, exec (.shld addr) s = .next t ∧ t = { s with mem := t.mem, events := t.events } ∧
      (ramAt s addr → t.byteAt addr = s.l) ∧ (ramAt s (addr + 1) → t.byteAt (addr + 1) = s.h) ∧
      (∀ other, other ≠ addr → other ≠ addr + 1 → t.byteAt other = s.byteAt other))

/-- XCHG exchanges H with D and L with E, PCHL loads PC from HL, SPHL loads SP from HL, NOP does nothing beyond its fetch, and
none of them touches anything else (R89, R192, R203, R231). -/
def Obligations.XchgPchlSphlNopEffects : Prop :=
  (∀ rest : List Byte, decode (0xEB :: rest) = .ok (.xchg, rest) ∧ decode (0xE9 :: rest) = .ok (.pchl, rest) ∧
    decode (0xF9 :: rest) = .ok (.sphl, rest) ∧ decode (0x00 :: rest) = .ok (.nop, rest)) ∧
  ∀ s : State,
    exec .xchg s = .next { s with h := s.d, l := s.e, d := s.h, e := s.l } ∧
    exec .pchl s = .next { s with pc := joinBytes s.h s.l } ∧
    exec .sphl s = .next { s with sp := joinBytes s.h s.l } ∧
    exec .nop s = .next s

/-! ## Arithmetic -/

/-- ADD, ADI, ADC and ACI: the sum modulo 256 goes to A, with CY, AC, S, Z and P of the addition; INR: one is added to its
operand, with S, Z, AC and P of that addition and CY unchanged. Nothing else changes but what reading the operand changes
(R100, R103 to R106, R111). -/
def Obligations.AdditionSetsSumAndFlags : Prop :=
  ∀ (r : Operand8) (v : Byte) (s : State) (rest : List Byte),
    (decode (opcodeOf 0b10 0b000 r.code :: rest) = .ok (.add r, rest) ∧ decode (0xC6 :: v :: rest) = .ok (.adi v, rest) ∧
     decode (opcodeOf 0b10 0b001 r.code :: rest) = .ok (.adc r, rest) ∧ decode (0xCE :: v :: rest) = .ok (.aci v, rest) ∧
     decode (opcodeOf 0b00 r.code 0b100 :: rest) = .ok (.inr r, rest)) ∧
    (∃ x f, exec (.add r) s = .next { (readOperand r s).2 with a := x, flags := f } ∧
      AddResult s.a (readOperand r s).1 false x f) ∧
    (∃ x f, exec (.adi v) s = .next { s with a := x, flags := f } ∧ AddResult s.a v false x f) ∧
    (∃ x f, exec (.adc r) s = .next { (readOperand r s).2 with a := x, flags := f } ∧
      AddResult s.a (readOperand r s).1 s.flags.cy x f) ∧
    (∃ x f, exec (.aci v) s = .next { s with a := x, flags := f } ∧ AddResult s.a v s.flags.cy x f) ∧
    (∃ x f, exec (.inr r) s =
        .next (writeOperand r x { (readOperand r s).2 with flags := { f with cy := s.flags.cy } }) ∧
      AddResult (readOperand r s).1 1 false x f)

/-- SUB, SUI, SBB and SBI: the difference modulo 256 goes to A, CY is the borrow, and AC is as the parameter `AuxSub` of
the machine says, for either of its admissible values; DCR: one is subtracted from its operand, with S, Z, AC and P of that
subtraction and CY unchanged (R101, R107 to R110, R112; D5, log 4). -/
def Obligations.SubtractionSetsDifferenceAndFlags : Prop :=
  ∀ (r : Operand8) (v : Byte) (s : State),
    (∃ x f, exec (.sub r) s = .next { (readOperand r s).2 with a := x, flags := f } ∧
      SubResult s.params.auxSub s.a (readOperand r s).1 false x f) ∧
    (∃ x f, exec (.sui v) s = .next { s with a := x, flags := f } ∧ SubResult s.params.auxSub s.a v false x f) ∧
    (∃ x f, exec (.sbb r) s = .next { (readOperand r s).2 with a := x, flags := f } ∧
      SubResult s.params.auxSub s.a (readOperand r s).1 s.flags.cy x f) ∧
    (∃ x f, exec (.sbi v) s = .next { s with a := x, flags := f } ∧ SubResult s.params.auxSub s.a v s.flags.cy x f) ∧
    (∃ x f, exec (.dcr r) s =
        .next (writeOperand r x { (readOperand r s).2 with flags := { f with cy := s.flags.cy } }) ∧
      SubResult s.params.auxSub (readOperand r s).1 1 false x f)

/-- CMP and CPI set the flags as the subtraction does and leave A: Z = 1 exactly when A = v and CY = 1 exactly when A < v
unsigned (R102, R137, R138; AC by D5, log 4). -/
def Obligations.CompareSetsFlagsOnly : Prop :=
  ∀ (r : Operand8) (v : Byte) (s : State),
    (∃ x f, exec (.cmp r) s = .next { (readOperand r s).2 with flags := f } ∧
      SubResult s.params.auxSub s.a (readOperand r s).1 false x f ∧
      (f.z = true ↔ s.a = (readOperand r s).1) ∧ (f.cy = true ↔ s.a.toNat < (readOperand r s).1.toNat)) ∧
    (∃ x f, exec (.cpi v) s = .next { s with flags := f } ∧ SubResult s.params.auxSub s.a v false x f ∧
      (f.z = true ↔ s.a = v) ∧ (f.cy = true ↔ s.a.toNat < v.toNat))

/-- INX and DCX add and subtract one modulo 2^16 and change no flag. The wrap is the spec's decision D1 (log 15). -/
def Obligations.PairIncrementAndDecrement : Prop :=
  ∀ (rp : RegPair) (s : State),
    (∃ w : Addr, exec (.inx rp) s = .next (writePair rp w s) ∧ w.toNat = ((readPair rp s).toNat + 1) % 65536) ∧
    (∃ w : Addr, exec (.dcx rp) s = .next (writePair rp w s) ∧ w.toNat = ((readPair rp s).toNat + 65535) % 65536)

/-- DAD adds a pair to HL modulo 2^16; CY is the carry out of bit 15 and every other flag stays (R115). -/
def Obligations.DadAddsToHl : Prop :=
  ∀ (rp : RegPair) (s : State) (rest : List Byte),
    decode (opcodeOf 0b00 (rp.code ++ 1#1) 0b001 :: rest) = .ok (.dad rp, rest) ∧
    ∃ (h l : Byte) (cy : Bool), exec (.dad rp) s = .next { s with h := h, l := l, flags := { s.flags with cy := cy } } ∧
      h.toNat * 256 + l.toNat = ((readPair .hl s).toNat + (readPair rp s).toNat) % 65536 ∧
      (cy = true ↔ 65535 < (readPair .hl s).toNat + (readPair rp s).toNat)

/-- DAA changes A and the flags only, and S, Z and P come from the new A. Under the default body the correction is the sum of
06h and 60h where the digits ask for them, A is the corrected byte modulo 256, AC the carry of the low digit, CY set by the
high correction and never cleared; a valid decimal byte with AC = CY = 0 stays. Under the other value of the parameter `Daa`
the new A, AC and CY are free (R116, D7, log 6). -/
def Obligations.DaaAdjustsAccumulatorOnly : Prop :=
  ∀ s : State, ∃ x f, exec .daa s = .next { s with a := x, flags := f } ∧ SzpOf x f ∧
    (s.params.daa = .standard →
      (∀ low high : Nat,
        (daaLow s.a s.flags.ac → low = 6) → (¬ daaLow s.a s.flags.ac → low = 0) →
        (daaHigh s.a s.flags.cy → high = 96) → (¬ daaHigh s.a s.flags.cy → high = 0) →
        x.toNat = (s.a.toNat + low + high) % 256 ∧ (f.ac = true ↔ 15 < s.a.toNat % 16 + low)) ∧
      (f.cy = true ↔ daaHigh s.a s.flags.cy ∨ s.flags.cy = true) ∧
      (bcdValid s.a → s.flags.ac = false → s.flags.cy = false → x = s.a ∧ f.ac = false ∧ f.cy = false)) ∧
    (s.params.daa = .other → (x, f.ac, f.cy) = Config.daaOther s.a s.flags.ac s.flags.cy)

/-- Under the default body of `Daa`, adding two packed decimal bytes with carry and then DAA leaves the decimal sum, CY being
its hundreds digit (R116; the body is the spec's decision D7, log 6). -/
def Obligations.DaaGivesTheDecimalSum : Prop :=
  ∀ (s : State) (v : Byte), s.params.daa = .standard → bcdValid s.a → bcdValid v →
    ∃ t u, exec (.aci v) s = .next t ∧ exec .daa t = .next u ∧ bcdValid u.a ∧
      bcdValue u.a + 100 * u.flags.cy.toNat = bcdValue s.a + bcdValue v + s.flags.cy.toNat

/-! ## Logical, rotate and carry -/

/-- ANI, XRA, XRI, ORA and ORI: the bitwise result goes to A, AC and CY become 0, S, Z and P describe the result
(R132 to R136). -/
def Obligations.BitwiseInstructionsClearCarries : Prop :=
  ∀ (r : Operand8) (v : Byte) (s : State) (rest : List Byte),
    (decode (0xE6 :: v :: rest) = .ok (.ani v, rest) ∧
     decode (opcodeOf 0b10 0b101 r.code :: rest) = .ok (.xra r, rest) ∧ decode (0xEE :: v :: rest) = .ok (.xri v, rest) ∧
     decode (opcodeOf 0b10 0b110 r.code :: rest) = .ok (.ora r, rest) ∧ decode (0xF6 :: v :: rest) = .ok (.ori v, rest)) ∧
    (∃ f, exec (.ani v) s = .next { s with a := s.a &&& v, flags := f } ∧
      f.ac = false ∧ f.cy = false ∧ SzpOf (s.a &&& v) f) ∧
    (∃ f, exec (.xra r) s = .next { (readOperand r s).2 with a := s.a ^^^ (readOperand r s).1, flags := f } ∧
      f.ac = false ∧ f.cy = false ∧ SzpOf (s.a ^^^ (readOperand r s).1) f) ∧
    (∃ f, exec (.xri v) s = .next { s with a := s.a ^^^ v, flags := f } ∧
      f.ac = false ∧ f.cy = false ∧ SzpOf (s.a ^^^ v) f) ∧
    (∃ f, exec (.ora r) s = .next { (readOperand r s).2 with a := s.a ||| (readOperand r s).1, flags := f } ∧
      f.ac = false ∧ f.cy = false ∧ SzpOf (s.a ||| (readOperand r s).1) f) ∧
    (∃ f, exec (.ori v) s = .next { s with a := s.a ||| v, flags := f } ∧
      f.ac = false ∧ f.cy = false ∧ SzpOf (s.a ||| v) f)

/-- ANA: the bitwise AND goes to A, CY becomes 0, S, Z and P describe the result, and AC is as the parameter `AuxAna` of the
machine says, for either of its admissible values (R130, R131; D6, log 5). -/
def Obligations.AnaSetsAuxiliaryCarryByParameter : Prop :=
  ∀ (r : Operand8) (s : State),
    ∃ f, exec (.ana r) s = .next { (readOperand r s).2 with a := s.a &&& (readOperand r s).1, flags := f } ∧
      f.cy = false ∧ SzpOf (s.a &&& (readOperand r s).1) f ∧
      (f.ac = true ↔ s.params.auxAna = .orBit3 ∧ (s.a.getLsbD 3 = true ∨ (readOperand r s).1.getLsbD 3 = true))

/-- The four rotates, bit by bit, CY taking the bit that leaves A; CMA inverts every bit of A; CMC inverts CY and STC sets it; no
other flag changes (R139 to R145). -/
def Obligations.RotatesAndComplementsBitByBit : Prop :=
  (∀ rest : List Byte, decode (0x07 :: rest) = .ok (.rlc, rest) ∧ decode (0x0F :: rest) = .ok (.rrc, rest) ∧
    decode (0x17 :: rest) = .ok (.ral, rest) ∧ decode (0x1F :: rest) = .ok (.rar, rest) ∧
    decode (0x2F :: rest) = .ok (.cma, rest) ∧ decode (0x3F :: rest) = .ok (.cmc, rest) ∧
    decode (0x37 :: rest) = .ok (.stc, rest)) ∧
  ∀ s : State,
    (∃ x, exec .rlc s = .next { s with a := x, flags := { s.flags with cy := s.a.getLsbD 7 } } ∧
      x.getLsbD 0 = s.a.getLsbD 7 ∧ ∀ k, k < 7 → x.getLsbD (k + 1) = s.a.getLsbD k) ∧
    (∃ x, exec .rrc s = .next { s with a := x, flags := { s.flags with cy := s.a.getLsbD 0 } } ∧
      x.getLsbD 7 = s.a.getLsbD 0 ∧ ∀ k, k < 7 → x.getLsbD k = s.a.getLsbD (k + 1)) ∧
    (∃ x, exec .ral s = .next { s with a := x, flags := { s.flags with cy := s.a.getLsbD 7 } } ∧
      x.getLsbD 0 = s.flags.cy ∧ ∀ k, k < 7 → x.getLsbD (k + 1) = s.a.getLsbD k) ∧
    (∃ x, exec .rar s = .next { s with a := x, flags := { s.flags with cy := s.a.getLsbD 0 } } ∧
      x.getLsbD 7 = s.flags.cy ∧ ∀ k, k < 7 → x.getLsbD k = s.a.getLsbD (k + 1)) ∧
    (∃ x, exec .cma s = .next { s with a := x } ∧ ∀ k, k < 8 → x.getLsbD k = !s.a.getLsbD k) ∧
    exec .cmc s = .next { s with flags := { s.flags with cy := !s.flags.cy } } ∧
    exec .stc s = .next { s with flags := { s.flags with cy := true } }

/-! ## Control transfer -/

/-- The eight condition codes and the flag each tests (R160). -/
def Obligations.ConditionCodesTestOneFlag : Prop :=
  ∀ (cc : Cond) (f : Flags), (condHolds cc f = true ↔ CondTrue cc f) ∧
    ([Cond.nz, .z, .nc, .c, .po, .pe, .p, .m].map Cond.code = [0, 1, 2, 3, 4, 5, 6, 7])

/-- JMP and the eight conditional jumps: the target becomes PC when the condition holds; otherwise PC stays past the three
bytes, both address bytes having been read (R161, R163 to R170). -/
def Obligations.JumpsReplaceThePc : Prop :=
  ∀ (cc : Cond) (b2 b3 : Byte) (s : State) (rest : List Byte),
    decode (0xC3 :: b2 :: b3 :: rest) = .ok (.jmp (joinBytes b3 b2), rest) ∧
    decode (opcodeOf 0b11 cc.code 0b010 :: b2 :: b3 :: rest) = .ok (jumpOn cc (joinBytes b3 b2), rest) ∧
    ∀ target : Addr,
      exec (.jmp target) s = .next { s with pc := target } ∧
      (CondTrue cc s.flags → exec (jumpOn cc target) s = .next { s with pc := target }) ∧
      (¬ CondTrue cc s.flags → exec (jumpOn cc target) s = .next s)

/-- The eight conditional calls: when the condition holds the PC is pushed and replaced; otherwise nothing is written and SP
stays. RST n always pushes PC and jumps to 8 * n (R173 to R180, R191). -/
def Obligations.ConditionalCallsAndRst : Prop :=
  ∀ (cc : Cond) (n : BitVec 3) (b2 b3 : Byte) (s : State) (rest : List Byte),
    decode (opcodeOf 0b11 cc.code 0b100 :: b2 :: b3 :: rest) = .ok (callOn cc (joinBytes b3 b2), rest) ∧
    decode (opcodeOf 0b11 n 0b111 :: rest) = .ok (.rst n, rest) ∧
    (∀ target : Addr,
      (CondTrue cc s.flags → exec (callOn cc target) s = .next { push16 s.pc s with pc := target }) ∧
      (¬ CondTrue cc s.flags → exec (callOn cc target) s = .next s)) ∧
    ∃ target : Addr, target.toNat = 8 * n.toNat ∧ exec (.rst n) s = .next { push16 s.pc s with pc := target }

/-- CALL leaves the return address little-endian at the new SP, two below the old one, and PC at the target; nothing else
changes. The wrap of SP is the spec's decision D2 (log 15; R171, R193). -/
def Obligations.CallStoresTheReturnAddress : Prop :=
  ∀ (target : Addr) (s : State), ∃ t, exec (.call target) s = .next t ∧
    t = { s with pc := target, sp := s.sp - 2, mem := t.mem, events := t.events } ∧
    (ramAt s (s.sp - 1) → t.byteAt (s.sp - 1) = highByte s.pc) ∧
    (ramAt s (s.sp - 2) → t.byteAt (s.sp - 2) = lowByte s.pc) ∧
    (∀ other, other ≠ s.sp - 1 → other ≠ s.sp - 2 → t.byteAt other = s.byteAt other)

/-- `Push16`: the high byte to SP-1, then the low byte to SP-2, SP becomes SP-2; `Pop16`: the low byte from SP, then the high
byte from SP+1, SP becomes SP+2, and the bytes popped stay in memory (R45, R46). -/
def Obligations.PushAndPopByteOrder : Prop :=
  ∀ (v : Addr) (s : State),
    push16 v s = { memWrite (s.sp - 2) (lowByte v) (memWrite (s.sp - 1) (highByte v) s) with sp := s.sp - 2 } ∧
    ∃ lo hi s1 s2, memRead s.sp s = (lo, s1) ∧ memRead (s.sp + 1) s1 = (hi, s2) ∧
      pop16 s = (joinBytes hi lo, { s2 with sp := s.sp + 2 }) ∧ (pop16 s).2.mem = s.mem

/-- RET takes PC from the stack; the eight conditional returns do so when the condition holds and otherwise do not read the
stack (R181, R183 to R190). -/
def Obligations.ReturnsPopThePc : Prop :=
  ∀ (cc : Cond) (s : State) (rest : List Byte),
    decode (0xC9 :: rest) = .ok (.ret, rest) ∧
    decode (opcodeOf 0b11 cc.code 0b000 :: rest) = .ok (returnOn cc, rest) ∧
    exec .ret s = .next { (pop16 s).2 with pc := (pop16 s).1 } ∧
    (CondTrue cc s.flags → exec (returnOn cc) s = .next { (pop16 s).2 with pc := (pop16 s).1 }) ∧
    (¬ CondTrue cc s.flags → exec (returnOn cc) s = .next s)

/-- A RET in any later state that has the SP a CALL left and whose two stack bytes are still those stored comes back to the
instruction after the CALL with the SP it had (R193; the wrap of SP is decision D2, log 15). -/
def Obligations.ReturnComesBackFromCall : Prop :=
  ∀ (target : Addr) (s t u : State), ramAt s (s.sp - 1) → ramAt s (s.sp - 2) →
    exec (.call target) s = .next t → u.sp = t.sp → u.memMap = t.memMap →
    u.byteAt (s.sp - 1) = t.byteAt (s.sp - 1) → u.byteAt (s.sp - 2) = t.byteAt (s.sp - 2) →
    exec .ret u = .next { u with pc := s.pc, sp := s.sp }

/-! ## Stack -/

/-- PUSH stores the pair, the high register at SP-1 and the low one at SP-2; PUSH PSW stores A and the flag byte. No register
but SP changes. The wrap of SP is decision D2 (log 15; R200). -/
def Obligations.PushStoresThePair : Prop :=
  ∀ (rp : StackPair) (s : State), ∃ t hi lo, exec (.push rp) s = .next t ∧
    (hi, lo) = (match rp with
      | .bc => (s.b, s.c)
      | .de => (s.d, s.e)
      | .hl => (s.h, s.l)
      | .psw => (s.a, flagByte s.flags)) ∧
    t = { s with sp := s.sp - 2, mem := t.mem, events := t.events } ∧
    (ramAt s (s.sp - 1) → t.byteAt (s.sp - 1) = hi) ∧ (ramAt s (s.sp - 2) → t.byteAt (s.sp - 2) = lo) ∧
    (∀ other, other ≠ s.sp - 1 → other ≠ s.sp - 2 → t.byteAt other = s.byteAt other)

/-- POP loads the pair from the two bytes at SP and SP+1; POP PSW loads A and the five flags. Memory stays. The wrap of SP is
decision D2, the ignored bits decision D4 (logs 15, 17; R201). -/
def Obligations.PopLoadsThePair : Prop :=
  ∀ (rp : StackPair) (s : State), ∃ t, exec (.pop rp) s = .next t ∧ t.mem = s.mem ∧ t.sp = s.sp + 2 ∧
    (storedAt s s.sp → storedAt s (s.sp + 1) → t = (match rp with
      | .bc => { s with sp := s.sp + 2, b := s.byteAt (s.sp + 1), c := s.byteAt s.sp }
      | .de => { s with sp := s.sp + 2, d := s.byteAt (s.sp + 1), e := s.byteAt s.sp }
      | .hl => { s with sp := s.sp + 2, h := s.byteAt (s.sp + 1), l := s.byteAt s.sp }
      | .psw => { s with
          sp := s.sp + 2, a := s.byteAt (s.sp + 1), flags := flagsFromByte (s.byteAt s.sp) }))

/-- Over RAM, PUSH and then POP of the same pair restores every register, the flags and SP (R200, R201). -/
def Obligations.PopRestoresWhatPushSaved : Prop :=
  ∀ (rp : StackPair) (s : State), ramAt s (s.sp - 1) → ramAt s (s.sp - 2) →
    ∃ t u, exec (.push rp) s = .next t ∧ exec (.pop rp) t = .next u ∧ u = { s with mem := t.mem }

/-- XTHL exchanges L with the byte at SP and H with the byte at SP+1 and leaves SP; two in a row restore HL and every byte of
memory. The wrap of SP+1 is decision D2 (log 15; R202). -/
def Obligations.XthlExchangesTopOfStack : Prop :=
  ∀ s : State, ∃ t, exec .xthl s = .next t ∧ t.sp = s.sp ∧
    (ramAt s s.sp → ramAt s (s.sp + 1) →
      t = { s with h := s.byteAt (s.sp + 1), l := s.byteAt s.sp, mem := t.mem } ∧
      t.byteAt s.sp = s.l ∧ t.byteAt (s.sp + 1) = s.h ∧
      (∀ other, other ≠ s.sp → other ≠ s.sp + 1 → t.byteAt other = s.byteAt other) ∧
      ∃ u, exec .xthl t = .next u ∧ u.h = s.h ∧ u.l = s.l ∧ ∀ other, u.byteAt other = s.byteAt other)

/-- The order of the two byte cycles of every 16-bit transfer of R44's table, as devices at both addresses see it: the stores of
SHLD; the pushes of PUSH, CALL, a taken conditional call, RST and an interrupt acceptance; the loads of LHLD; the pops of
POP, RET and a taken conditional return; XTHL; and the operand bytes of LXI and every other instruction of three bytes (R44,
R50; the orders within XTHL are decision D17, log 16). -/
def Obligations.DevicesSeeTheByteOrder : Prop :=
  ∀ (s : State) (addr : Addr) (rp : StackPair) (cc : Cond),
    (isDevice s addr → isDevice s (addr + 1) →
      ∃ t, exec (.shld addr) s = .next t ∧
        t.events = s.events ++ [.memWrite addr s.l, .memWrite (addr + 1) s.h]) ∧
    (isDevice s (s.sp - 1) → isDevice s (s.sp - 2) →
      (∃ t, exec (.push rp) s = .next t ∧ t.events = s.events ++ pushEvents s (readStackPair rp s)) ∧
      (∃ t, exec (.call addr) s = .next t ∧ t.events = s.events ++ pushEvents s s.pc) ∧
      (CondTrue cc s.flags → ∃ t, exec (callOn cc addr) s = .next t ∧ t.events = s.events ++ pushEvents s s.pc) ∧
      (∀ n, ∃ t, exec (.rst n) s = .next t ∧ t.events = s.events ++ pushEvents s s.pc) ∧
      (∀ n, (accept n s).events = s.events ++ pushEvents s s.pc)) ∧
    (∀ lo hi rest, s.busAnswers = lo :: hi :: rest →
      (isDevice s addr → isDevice s (addr + 1) →
        exec (.lhld addr) s = .next { s with
          l := lo, h := hi, busAnswers := rest, events := s.events ++ [.memRead addr lo, .memRead (addr + 1) hi] }) ∧
      (isDevice s s.sp → isDevice s (s.sp + 1) →
        exec (.pop rp) s = .next (writeStackPair rp (joinBytes hi lo) { s with
          sp := s.sp + 2, busAnswers := rest, events := s.events ++ [.memRead s.sp lo, .memRead (s.sp + 1) hi] }) ∧
        exec .ret s = .next { s with
          pc := joinBytes hi lo, sp := s.sp + 2, busAnswers := rest,
          events := s.events ++ [.memRead s.sp lo, .memRead (s.sp + 1) hi] } ∧
        (CondTrue cc s.flags → exec (returnOn cc) s = exec .ret s) ∧
        exec .xthl s = .next { s with
          l := lo, h := hi, busAnswers := rest,
          events := s.events ++
            [.memRead s.sp lo, .memRead (s.sp + 1) hi, .memWrite (s.sp + 1) s.h, .memWrite s.sp s.l] })) ∧
    (∀ op b2 b3 rest, s.busAnswers = op :: b2 :: b3 :: rest → op ∈ threeByteOpcodes →
      isDevice s s.pc → isDevice s (s.pc + 1) → isDevice s (s.pc + 2) →
      ∃ i, decode [op, b2, b3] = .ok (i, []) ∧ fetchInstr s = .ok (i, { s with
        pc := s.pc + 3, busAnswers := rest,
        events := s.events ++ [.memRead s.pc op, .memRead (s.pc + 1) b2, .memRead (s.pc + 2) b3] }))

/-! ## Input, output, interrupt control, halt -/

/-- IN loads A with the byte the platform presents, the next listed one or else a free value; OUT records A at the port;
neither changes a flag or memory. Inputs as draws and outputs as a trace are decision D14 (logs 11, 12; R210, R211). -/
def Obligations.PortsExchangeBytesWithThePlatform : Prop :=
  ∀ (port : Byte) (s : State),
    (∀ v rest, s.busAnswers = v :: rest → exec (.inPort port) s = .next { s with
      a := v, busAnswers := rest, events := s.events ++ [.portRead port v] }) ∧
    (s.busAnswers = [] → exec (.inPort port) s = .next { s with
      a := Config.freeByte s.draws, draws := s.draws + 1,
      events := s.events ++ [.portRead port (Config.freeByte s.draws)] }) ∧
    exec (.outPort port) s = .next { s with events := s.events ++ [.portWrite port s.a] }

/-- EI sets INTE and EIWAIT to EiDelay + 1, DI clears both, HLT sets HALTED, and none of them changes anything else. The value
of EIWAIT is the spec's decision D10 (logs 7, 26; R220, R221, R230). -/
def Obligations.EiDiAndHltWriteControlBits : Prop :=
  ∀ s : State,
    exec .ei s = .next { s with
      inte := true, eiWait := (match s.params.eiDelay with | .one => 2 | .zero => 1) } ∧
    exec .di s = .next { s with inte := false, eiWait := 0 } ∧
    exec .hlt s = .next { s with halted := true }

/-! ## The interrupt -/

/-- `Accept(n)`: INTE, EIWAIT and HALTED cleared, only PC saved, on the stack, and PC at 8 * n. The entry sequence is the
spec's decision D9, D25, D26 (log 20; R244). -/
def Obligations.AcceptSavesOnlyThePc : Prop :=
  ∀ (n : BitVec 3) (s : State),
    ∃ target : Addr, target.toNat = 8 * n.toNat ∧
    accept n s = { s with
      inte := false, eiWait := 0, halted := false, pc := target, sp := s.sp - 2,
      mem := (accept n s).mem, events := (accept n s).events } ∧
    (ramAt s (s.sp - 1) → (accept n s).byteAt (s.sp - 1) = highByte s.pc) ∧
    (ramAt s (s.sp - 2) → (accept n s).byteAt (s.sp - 2) = lowByte s.pc) ∧
    (∀ other, other ≠ s.sp - 1 → other ≠ s.sp - 2 → (accept n s).byteAt other = s.byteAt other)

/-- The acceptance check, case by case: EIWAIT refuses and counts down; INTE = 0 refuses; no request does nothing; RST n is
accepted; any other opcode is refused as a configuration (R243, R245; D9, D10, logs 8, 9, 20). -/
def Obligations.AcceptanceCheckByCases : Prop :=
  ∀ s : State,
    (s.eiWait > 0 → interruptCheck s = .next { s with intSource := (askSource s.intSource).2, eiWait := s.eiWait - 1 }) ∧
    (s.eiWait = 0 → s.inte = false → interruptCheck s = .next { s with intSource := (askSource s.intSource).2 }) ∧
    (s.eiWait = 0 → s.inte = true →
      (∀ src, askSource s.intSource = (none, src) → interruptCheck s = .next { s with intSource := src }) ∧
      (∀ n src, askSource s.intSource = (some (opcodeOf 0b11 n 0b111), src) →
        interruptCheck s = .next (accept n { s with intSource := src })) ∧
      (∀ op src, askSource s.intSource = (some op, src) → (∀ n, op ≠ opcodeOf 0b11 n 0b111) →
        interruptCheck s = .refused (.interruptOpcodeNotRst op)))

/-- A step that runs EI takes no interrupt, whatever the source answers; and while EIWAIT is above 1 after an instruction's
rule, its end takes none either, so that with EiDelay = 1 the instruction after EI is not interrupted (R220, R247; D10,
log 7). -/
def Obligations.EiDelaysAcceptance : Prop :=
  (∀ s s1 : State, s.halted = false → fetchInstr s = .ok (.ei, s1) →
    step s = .next { s1 with
      inte := true, eiWait := eiDelayOf s.params.eiDelay, intSource := (askSource s.intSource).2 }) ∧
  (∀ (s s1 s2 : State) (i : Instr), s.halted = false → 0 < s.eiWait → fetchInstr s = .ok (i, s1) →
    exec i s1 = .next s2 → i ≠ .di →
    step s = .next { s2 with intSource := (askSource s2.intSource).2, eiWait := s2.eiWait - 1 })

/-- EI then RET, the standard end of a handler: for either value of EiDelay the RET is executed before any request is taken, so
that PC and SP are popped, with interrupts enabled, when the next acceptance check runs; with EiDelay = 1 that check refuses
too (R247, R220; D10, log 7). -/
def Obligations.EiThenRetReturnsFirst : Prop :=
  ∀ s t : State, s.halted = false → storedAt s s.pc → storedAt s (s.pc + 1) →
    s.byteAt s.pc = 0xFB → s.byteAt (s.pc + 1) = 0xC9 → step s = .next t →
    t.sp = s.sp ∧ t.mem = s.mem ∧ t.halted = false ∧ t.inte = true ∧
    ∃ t1, fetchInstr t = .ok (.ret, t1) ∧
      (storedAt s s.sp → storedAt s (s.sp + 1) →
        ∃ t2, exec .ret t1 = .next t2 ∧ step t = interruptCheck t2 ∧
          t2.pc = joinBytes (s.byteAt (s.sp + 1)) (s.byteAt s.sp) ∧ t2.sp = s.sp + 2 ∧ t2.mem = s.mem ∧
          t2.inte = true ∧ t2.intSource = (askSource s.intSource).2 ∧
          (s.params.eiDelay = .one → step t = .next { t2 with
            eiWait := 0, intSource := (askSource t2.intSource).2 }) ∧
          (s.params.eiDelay = .zero → t2.eiWait = 0))

/-- An accepted interrupt whose handler returns at once with RET resumes the interrupted program: PC, SP and every register
as before, with interrupts disabled (R244, R247; the entry sequence is decision D9, D25, D26, log 20). -/
def Obligations.RetResumesTheInterruptedProgram : Prop :=
  ∀ (n : BitVec 3) (s : State), ramAt s (s.sp - 1) → ramAt s (s.sp - 2) →
    exec .ret (accept n s) = .next { s with
      inte := false, eiWait := 0, halted := false, mem := (accept n s).mem }

/-! ## Rules of the whole machine -/

/-- A flag changes only when the rule of the executing instruction says so: the flags written are those of the table, the
six logical instructions clear CY, POP PSW loads all five from the byte at SP, and nothing an instruction does depends on a
flag the table does not say it reads (R30). -/
def Obligations.FlagsChangeOnlyAsListed : Prop :=
  (∀ (i : Instr) (s t : State), exec i s = .next t → ∀ n, n ∉ flagsWritten i → flagOf t.flags n = flagOf s.flags n) ∧
  (∀ (r : Operand8) (v : Byte) (i : Instr) (s t : State),
    i ∈ [Instr.ana r, .ani v, .xra r, .xri v, .ora r, .ori v] → exec i s = .next t → t.flags.cy = false) ∧
  (∀ s : State, ∃ t, exec (.pop .psw) s = .next t ∧ t.flags = flagsFromByte (memRead s.sp s).1) ∧
  (∀ (i : Instr) (s t : State) (f g : Flags), agreeOn (flagsRead i) f g → exec i { s with flags := f } = .next t →
    ∃ g', exec i { s with flags := g } = .next { t with flags := g' } ∧ agreeOn (flagsWritten i) t.flags g')

/-- Every byte of memory outside the addresses an instruction stores to reads as before (R50). -/
def Obligations.MemoryChangesOnlyWhereStored : Prop :=
  ∀ (i : Instr) (s t : State), exec i s = .next t →
    ∀ addr, addr ∉ storeAddrs i s → t.byteAt addr = s.byteAt addr

/-- Every register an instruction's rule does not name as written is unchanged: the 8-bit registers, SP, INTE and EIWAIT
but by EI and DI, HALTED but by HLT, PC (which is past the instruction when it runs) but by the jumps, calls and returns, and
always the memory map, the parameters and the interrupt source (R12, R15, R17, R26, R27). -/
def Obligations.RegistersChangeOnlyAsNamed : Prop :=
  ∀ (i : Instr) (s t : State), exec i s = .next t →
    (∀ r, r ≠ .m → r ∉ destinations i → (readOperand r t).1 = (readOperand r s).1) ∧
    (writesSp i = false → t.sp = s.sp) ∧
    (writesPc i = false → t.pc = s.pc) ∧
    (i ≠ .ei → i ≠ .di → t.inte = s.inte ∧ t.eiWait = s.eiWait) ∧
    (i ≠ .hlt → t.halted = s.halted) ∧
    t.memMap = s.memMap ∧ t.params = s.params ∧ t.intSource = s.intSource

/-- On a machine whose whole address space is RAM or ROM, only IN and OUT have to do with the platform: every other
instruction leaves the bytes it will drive and the trace alone (R41, R47). -/
def Obligations.OnlyPortsTouchThePlatform : Prop :=
  ∀ (i : Instr) (s t : State), (∀ addr, storedAt s addr) → exec i s = .next t →
    (∀ port, i ≠ .inPort port) → (∀ port, i ≠ .outPort port) →
    t.busAnswers = s.busAnswers ∧ t.draws = s.draws ∧ t.events = s.events

/-- The invariant of the machine is kept by every step: memory stays canonical, EIWAIT stays at most EiDelay + 1, and EIWAIT is
0 whenever interrupts are disabled (R40, R220, R243, R244). -/
def Obligations.StepKeepsTheInvariant : Prop :=
  ∀ s t : State, s.Inv → step s = .next t → t.Inv

/-- The invariant holds at reset, where PC is 0000h, interrupts are disabled and the machine is not halted. That reset does this
is the spec's decision D11 (log 2; R270). -/
def Obligations.ResetHasTheInvariant : Prop :=
  State.reset.Inv ∧ State.reset.pc = 0 ∧ State.reset.inte = false ∧ State.reset.eiWait = 0 ∧ State.reset.halted = false

/-- No step changes the memory map or a parameter, and the trace of bus events only grows (R249; D14, D27, logs 10, 12). -/
def Obligations.StepKeepsThePlatformsChoices : Prop :=
  ∀ s t : State, step s = .next t →
    t.memMap = s.memMap ∧ t.params = s.params ∧ s.events <+: t.events ∧ t.intSource = (askSource s.intSource).2

/-- No step changes a byte that is not RAM: ROM, absent and device addresses ignore every write, the pushes of an interrupt
included (R42; D13, D20, log 10). -/
def Obligations.StepNeverWritesOutsideRam : Prop :=
  ∀ (s t : State) (addr : Addr), step s = .next t → ¬ ramAt s addr → t.byteAt addr = s.byteAt addr

/-- INTE goes from 0 to 1 only by executing EI (R26, R242). -/
def Obligations.OnlyEiEnablesInterrupts : Prop :=
  ∀ s t : State, step s = .next t → s.inte = false → t.inte = true →
    s.halted = false ∧ ∃ s1, fetchInstr s = .ok (.ei, s1)

/-- A running machine becomes halted only by executing HLT; a halted one leaves the halt only by accepting a request, with
INTE = 1 and EIWAIT = 0, and then pushes the PC after the HLT (R230, R255; how a halt ends is decision D12, log 19). -/
def Obligations.HaltIsEnteredByHltAndLeftByInterrupt : Prop :=
  (∀ s t : State, step s = .next t → s.halted = false → t.halted = true → ∃ s1, fetchInstr s = .ok (.hlt, s1)) ∧
  (∀ s t : State, step s = .next t → s.halted = true → t.halted = false →
    s.inte = true ∧ s.eiWait = 0 ∧
    ∃ n src, askSource s.intSource = (some (opcodeOf 0b11 n 0b111), src) ∧ t = accept n { s with intSource := src })

/-- The end of a run. A machine halted with interrupts disabled, or halted with a source that never requests again, never
changes again, for any number of steps: only the source's answers and EIWAIT are used up. Otherwise a halted machine with INTE
= 1 and EIWAIT = 0 goes on with `Accept(n)` at the first request (R230, R249; D12, log 19). -/
def Obligations.FinalStateIsFinal : Prop :=
  (∀ (k : Nat) (s : State), s.Final →
    ∃ t, Sys2Proof.core.run k s = .next t ∧ sameButInterruptSource s t ∧ t.Final) ∧
  (∀ (k : Nat) (n : BitVec 3) (s : State), s.halted = true → s.inte = true → s.eiWait = 0 →
    (∀ j, j < k → answerAt j s.intSource = none) → answerAt k s.intSource = some (opcodeOf 0b11 n 0b111) →
    Sys2Proof.core.run (k + 1) s = .next (accept n { s with intSource := sourceAfter (k + 1) s.intSource }))

/-- A store is seen by the very next fetch: after a step that runs STA to the byte right after it, in RAM, the next fetch reads
the byte stored (R56; decision D16, log 18). -/
def Obligations.NextFetchSeesTheStore : Prop :=
  ∀ (s t : State) (addr : Addr), s.halted = false → s.inte = false →
    storedAt s s.pc → storedAt s (s.pc + 1) → storedAt s (s.pc + 2) → ramAt s addr → addr = s.pc + 3 →
    s.byteAt s.pc = 0x32 → s.byteAt (s.pc + 1) = lowByte addr → s.byteAt (s.pc + 2) = highByte addr →
    step s = .next t → t.pc = addr ∧ (fetch8 t).1 = s.a

/-- The interrupt source: its listed answers come first, one at each question; then, as it is set, no request for ever, the
same pattern over and over without end, or at each question any answer, no request or RST n (R241; the form of the source is
the model's, log 8). -/
def Obligations.InterruptSourceAdmitsEveryPattern : Prop :=
  ∀ (listed rest : List (Option Byte)) (first : Option Byte) (after : IntAfter) (drawn k : Nat),
    (∀ h : k < listed.length, answerAt k { listed := listed, after := after, drawn := drawn } = listed[k]) ∧
    answerAt (listed.length + k) { listed := listed, after := .never, drawn := drawn } = none ∧
    some (answerAt (listed.length + k) { listed := listed, after := .again first rest, drawn := drawn }) =
      (first :: rest)[k % (rest.length + 1)]? ∧
    answerAt (listed.length + k) { listed := listed, after := .free, drawn := drawn } =
      (Config.freeRequest (drawn + k)).map fun n => opcodeOf 0b11 n 0b111
end

