-- ==== Sys2Proof/Laws/Bytes.lean ====
section
/-! SUPPORT. Bytes and words: joining and splitting are inverse; codes and opcode fields. -/

namespace Sys2Proof.Machine

@[simp] theorem highByte_joinBytes (hi lo : Byte) : highByte (joinBytes hi lo) = hi := by
  apply BitVec.eq_of_getLsbD_eq
  intro k hk
  have h1 : 8 + k < 16 := by omega
  simp [highByte, joinBytes, hk, h1]

@[simp] theorem lowByte_joinBytes (hi lo : Byte) : lowByte (joinBytes hi lo) = lo := by
  apply BitVec.eq_of_getLsbD_eq
  intro k hk
  simp [lowByte, joinBytes, hk]
  omega

@[simp] theorem joinBytes_high_low (w : Addr) : joinBytes (highByte w) (lowByte w) = w := by
  apply BitVec.eq_of_getLsbD_eq
  intro k hk
  rcases Nat.lt_or_ge k 8 with h | h
  · simp [highByte, lowByte, joinBytes, h, hk]
  · have h8 : k - 8 < 8 := by omega
    have hs : 8 + (k - 8) = k := by omega
    simp [highByte, lowByte, joinBytes, Nat.not_lt.mpr h, hk, h8, hs]

theorem joinBytes_toNat (hi lo : Byte) : (joinBytes hi lo).toNat = hi.toNat * 256 + lo.toNat := by
  have h := lo.isLt
  have h' := hi.isLt
  have hl : lo.toNat < 2 ^ 8 := h
  rw [joinBytes, BitVec.toNat_or, BitVec.toNat_shiftLeft, BitVec.toNat_setWidth, BitVec.toNat_setWidth,
    Nat.mod_eq_of_lt (by omega), Nat.mod_eq_of_lt (by omega), Nat.shiftLeft_eq, Nat.mod_eq_of_lt (by omega),
    ← Nat.shiftLeft_eq, ← Nat.shiftLeft_add_eq_or_of_lt hl, Nat.shiftLeft_eq]

@[simp] theorem fieldX_opcodeOf : ∀ (x : BitVec 2) (y z : BitVec 3), fieldX (opcodeOf x y z) = x := by decide

@[simp] theorem fieldY_opcodeOf : ∀ (x : BitVec 2) (y z : BitVec 3), fieldY (opcodeOf x y z) = y := by decide

@[simp] theorem fieldZ_opcodeOf : ∀ (x : BitVec 2) (y z : BitVec 3), fieldZ (opcodeOf x y z) = z := by decide

/-- An opcode byte is its three fields. -/
theorem opcodeOf_fields : ∀ op : Byte, opcodeOf (fieldX op) (fieldY op) (fieldZ op) = op := by decide

end Sys2Proof.Machine

namespace Sys2Proof

@[simp] theorem Operand8.ofCode_code (r : Operand8) : Operand8.ofCode r.code = r := by cases r <;> rfl

@[simp] theorem Operand8.code_ofCode : ∀ code : BitVec 3, (Operand8.ofCode code).code = code := by decide

end Sys2Proof
end

