-- ==== Sys2Proof/Laws/Decode.lean ====
section
/-! SUPPORT. How the form of an opcode decides the decoding of the bytes after it (R60). -/

namespace Sys2Proof

open Sys2Proof.Machine

theorem decode_bare {op : Byte} {i : Instr} (h : decodeOpcode op = .bare i) (rest : List Byte) :
    decode (op :: rest) = .ok (i, rest) := by simp only [decode, h]

theorem decode_takesByte {op : Byte} {f : Byte → Instr} (h : decodeOpcode op = .takesByte f) (b2 : Byte)
    (rest : List Byte) : decode (op :: b2 :: rest) = .ok (f b2, rest) := by simp only [decode, h]

theorem decode_takesWord {op : Byte} {f : Addr → Instr} (h : decodeOpcode op = .takesWord f) (b2 b3 : Byte)
    (rest : List Byte) : decode (op :: b2 :: b3 :: rest) = .ok (f (joinBytes b3 b2), rest) := by
  simp only [decode, h]

theorem decode_wordForm {op : Byte} {f : Addr → Instr} (h : decodeOpcode op = .takesWord f) (w : Addr)
    (rest : List Byte) : decode (wordForm op w ++ rest) = .ok (f w, rest) := by
  simp [wordForm, decode, h]

/-- What a successful decoding says of the opcode's form. -/
theorem decode_cases {op : Byte} {bytes rest : List Byte} {i : Instr} (h : decode (op :: bytes) = .ok (i, rest)) :
    (decodeOpcode op = .bare i ∧ bytes = rest) ∨
    (∃ f b2, decodeOpcode op = .takesByte f ∧ i = f b2 ∧ bytes = b2 :: rest) ∨
    (∃ f b2 b3, decodeOpcode op = .takesWord f ∧ i = f (joinBytes b3 b2) ∧ bytes = b2 :: b3 :: rest) := by
  simp only [decode] at h
  split at h
  · cases h
  · simp only [Except.ok.injEq, Prod.mk.injEq] at h
    exact .inl ⟨by rw [← h.1]; assumption, h.2⟩
  · rename_i f hf
    split at h
    · simp only [Except.ok.injEq, Prod.mk.injEq] at h
      exact .inr (.inl ⟨f, _, hf, h.1.symm, by rw [h.2]⟩)
    · cases h
  · rename_i f hf
    split at h
    · simp only [Except.ok.injEq, Prod.mk.injEq] at h
      exact .inr (.inr ⟨f, _, _, hf, h.1.symm, by rw [h.2]⟩)
    · cases h

end Sys2Proof
end

