-- ==== Sys2Proof/Laws/Flags.lean ====
section
/-! SUPPORT. The fields of every flag computation, so that no later proof unfolds one. -/

namespace Sys2Proof.Machine

open Sys2Proof.Config

@[simp] theorem setCY_s (cy : Bool) (f : Flags) : (setCY cy f).s = f.s := rfl
@[simp] theorem setCY_z (cy : Bool) (f : Flags) : (setCY cy f).z = f.z := rfl
@[simp] theorem setCY_ac (cy : Bool) (f : Flags) : (setCY cy f).ac = f.ac := rfl
@[simp] theorem setCY_p (cy : Bool) (f : Flags) : (setCY cy f).p = f.p := rfl
@[simp] theorem setCY_cy (cy : Bool) (f : Flags) : (setCY cy f).cy = cy := rfl

@[simp] theorem flagsOf_s (v : Byte) (ac cy : Bool) : (flagsOf v ac cy).s = v.msb := rfl
@[simp] theorem flagsOf_z (v : Byte) (ac cy : Bool) : (flagsOf v ac cy).z = (v == 0) := rfl
@[simp] theorem flagsOf_ac (v : Byte) (ac cy : Bool) : (flagsOf v ac cy).ac = ac := rfl
@[simp] theorem flagsOf_p (v : Byte) (ac cy : Bool) : (flagsOf v ac cy).p = parity v := rfl
@[simp] theorem flagsOf_cy (v : Byte) (ac cy : Bool) : (flagsOf v ac cy).cy = cy := rfl

/-- The sum and the two flags the adder decides (R100); S, Z and P are those of the result. -/
theorem add8_eq (a b : Byte) (cin : Bool) : add8 a b cin =
    (BitVec.ofNat 8 (a.toNat + b.toNat + cin.toNat),
     flagsOf (BitVec.ofNat 8 (a.toNat + b.toNat + cin.toNat))
       (decide (a.toNat % 16 + b.toNat % 16 + cin.toNat > 15)) (decide (a.toNat + b.toNat + cin.toNat > 255))) := rfl

/-- The difference and the two flags the subtracter decides (R101). -/
theorem sub8_eq (mode : AuxSub) (a b : Byte) (bin : Bool) : sub8 mode a b bin =
    (BitVec.ofInt 8 (a.toNat - b.toNat - bin.toNat),
     flagsOf (BitVec.ofInt 8 (a.toNat - b.toNat - bin.toNat)) (auxSub mode a b bin)
       (decide ((a.toNat : Int) - b.toNat - bin.toNat < 0))) := rfl

end Sys2Proof.Machine
end

