-- ==== Sys2Proof/Laws/Memory.lean ====
section
/-! SUPPORT. The laws of stored bytes: a read after a write, and the canonical form. -/

namespace Sys2Proof.Machine

/-- Every entry of a list lies above an address. -/
theorem Memory.read_eq_unlisted (m : Memory) (addr : Nat) (h : ∀ cell ∈ m, cell.1 ≠ addr) :
    Memory.read m addr = Memory.unlisted := by
  induction m with
  | nil => rfl
  | cons cell rest ih =>
    obtain ⟨k, v⟩ := cell
    have hk : k ≠ addr := h (k, v) (by simp)
    simp only [Memory.read, if_neg hk]
    exact ih fun c hc => h c (by simp [hc])

/-- Placing an entry changes only what its own address reads as. -/
theorem Memory.read_place_other (m : Memory) (addr other : Nat) (v : Byte) (h : other ≠ addr) :
    Memory.read (Memory.place m addr v) other = Memory.read m other := by
  induction m with
  | nil =>
    unfold Memory.place
    split
    · rfl
    · simp [Memory.read, Ne.symm h]
  | cons cell rest ih =>
    obtain ⟨k, w⟩ := cell
    unfold Memory.place
    split
    · rfl
    · dsimp only
      split
      · simp [Memory.read, Ne.symm h]
      · simp only [Memory.read, ih]

/-- A placed entry is what its address reads as, in a list that had none for it. -/
theorem Memory.read_place_same (m : Memory) (addr : Nat) (v : Byte) (h : ∀ cell ∈ m, cell.1 ≠ addr) :
    Memory.read (Memory.place m addr v) addr = v := by
  induction m with
  | nil =>
    unfold Memory.place
    split
    · simp [Memory.read, *]
    · simp [Memory.read]
  | cons cell rest ih =>
    obtain ⟨k, w⟩ := cell
    have hk : k ≠ addr := h (k, w) (by simp)
    have hr : ∀ c ∈ rest, c.1 ≠ addr := fun c hc => h c (by simp [hc])
    unfold Memory.place
    split
    · rw [Memory.read_eq_unlisted _ _ h]; simp [*]
    · dsimp only
      split
      · simp [Memory.read]
      · simp only [Memory.read, if_neg hk]
        exact ih hr

/-- Dropping the entries of one address changes only what that address reads as. -/
theorem Memory.read_filter_other (m : Memory) (addr other : Nat) (h : other ≠ addr) :
    Memory.read (m.filter fun cell => cell.1 != addr) other = Memory.read m other := by
  induction m with
  | nil => rfl
  | cons cell rest ih =>
    obtain ⟨k, w⟩ := cell
    by_cases hk : k = addr
    · subst hk
      simp [Memory.read, Ne.symm h, ih]
    · simp [hk, Memory.read, ih]

@[simp] theorem Memory.read_write_same (m : Memory) (addr : Nat) (v : Byte) :
    Memory.read (Memory.write m addr v) addr = v :=
  Memory.read_place_same _ _ _ (by simp)

@[simp] theorem Memory.read_write_other (m : Memory) (addr other : Nat) (v : Byte) (h : other ≠ addr) :
    Memory.read (Memory.write m addr v) other = Memory.read m other := by
  rw [Memory.write, Memory.read_place_other _ _ _ _ h, Memory.read_filter_other _ _ _ h]

/-- What the canonical form says. -/
theorem Memory.wf_iff (m : Memory) :
    Memory.wf m = true ↔
      m.Pairwise (fun x y => x.1 < y.1) ∧ ∀ cell ∈ m, cell.1 < 65536 ∧ cell.2 ≠ Memory.unlisted := by
  simp [Memory.wf, List.all_eq_true]

/-- The entries after a placement are the old ones and the placed one. -/
theorem Memory.mem_place (m : Memory) (addr : Nat) (v : Byte) (cell : Host.Cell)
    (h : cell ∈ Memory.place m addr v) : cell ∈ m ∨ (cell = (addr, v) ∧ v ≠ Memory.unlisted) := by
  induction m with
  | nil =>
    unfold Memory.place at h
    split at h
    · exact .inl h
    · exact .inr ⟨by simpa using h, ‹_›⟩
  | cons first rest ih =>
    obtain ⟨k, w⟩ := first
    unfold Memory.place at h
    split at h
    · exact .inl h
    · dsimp only at h
      split at h
      · rcases List.mem_cons.mp h with h | h
        · exact .inr ⟨h, ‹_›⟩
        · exact .inl h
      · rcases List.mem_cons.mp h with h | h
        · exact .inl (by simp [h])
        · exact (ih h).imp (fun h => by simp [h]) id

/-- Placing keeps the addresses rising, in a list that has no entry for the address. -/
theorem Memory.place_pairwise (m : Memory) (addr : Nat) (v : Byte)
    (hs : m.Pairwise fun x y => x.1 < y.1) (hn : ∀ cell ∈ m, cell.1 ≠ addr) :
    (Memory.place m addr v).Pairwise fun x y => x.1 < y.1 := by
  induction m with
  | nil => unfold Memory.place; split <;> simp
  | cons first rest ih =>
    obtain ⟨k, w⟩ := first
    have hk : k ≠ addr := hn (k, w) (by simp)
    obtain ⟨hlt, hrest⟩ := List.pairwise_cons.mp hs
    unfold Memory.place
    split
    · exact hs
    · dsimp only
      split
      · rename_i hlt'
        refine List.pairwise_cons.mpr ⟨fun c hc => ?_, hs⟩
        rcases List.mem_cons.mp hc with rfl | hc
        · exact hlt'
        · exact Nat.lt_trans hlt' (hlt c hc)
      · rename_i hge
        refine List.pairwise_cons.mpr ⟨fun c hc => ?_, ih hrest fun c hc => hn c (by simp [hc])⟩
        rcases Memory.mem_place _ _ _ _ hc with hc | ⟨rfl, -⟩
        · exact hlt c hc
        · dsimp only; omega

/-- A write keeps the canonical form. -/
theorem Memory.write_wf (m : Memory) (addr : Nat) (v : Byte) (h : Memory.wf m = true) (ha : addr < 65536) :
    Memory.wf (Memory.write m addr v) = true := by
  obtain ⟨hs, hv⟩ := (Memory.wf_iff m).mp h
  refine (Memory.wf_iff _).mpr ⟨Memory.place_pairwise _ _ _ (hs.filter _) (by simp), fun cell hc => ?_⟩
  rcases Memory.mem_place _ _ _ _ hc with hc | ⟨rfl, hne⟩
  · exact hv cell (List.mem_filter.mp hc).1
  · exact ⟨ha, hne⟩

theorem Memory.reset_wf : Memory.wf State.reset.mem = true := by decide

end Sys2Proof.Machine
end

