-- ==== Sys2Proof/Laws/State.lean ====
section
/-! SUPPORT. What each one-field update of State does to each field: one lemma per field per update, true by rfl. -/

namespace Sys2Proof.Machine

open Sys2Proof.Config

@[simp] theorem State.setA_a (s : State) (v : Byte) : (s.setA v).a = v := rfl
@[simp] theorem State.setA_b (s : State) (v : Byte) : (s.setA v).b = s.b := rfl
@[simp] theorem State.setA_c (s : State) (v : Byte) : (s.setA v).c = s.c := rfl
@[simp] theorem State.setA_d (s : State) (v : Byte) : (s.setA v).d = s.d := rfl
@[simp] theorem State.setA_e (s : State) (v : Byte) : (s.setA v).e = s.e := rfl
@[simp] theorem State.setA_h (s : State) (v : Byte) : (s.setA v).h = s.h := rfl
@[simp] theorem State.setA_l (s : State) (v : Byte) : (s.setA v).l = s.l := rfl
@[simp] theorem State.setA_flags (s : State) (v : Byte) : (s.setA v).flags = s.flags := rfl
@[simp] theorem State.setA_sp (s : State) (v : Byte) : (s.setA v).sp = s.sp := rfl
@[simp] theorem State.setA_pc (s : State) (v : Byte) : (s.setA v).pc = s.pc := rfl
@[simp] theorem State.setA_inte (s : State) (v : Byte) : (s.setA v).inte = s.inte := rfl
@[simp] theorem State.setA_eiWait (s : State) (v : Byte) : (s.setA v).eiWait = s.eiWait := rfl
@[simp] theorem State.setA_halted (s : State) (v : Byte) : (s.setA v).halted = s.halted := rfl
@[simp] theorem State.setA_mem (s : State) (v : Byte) : (s.setA v).mem = s.mem := rfl
@[simp] theorem State.setA_memMap (s : State) (v : Byte) : (s.setA v).memMap = s.memMap := rfl
@[simp] theorem State.setA_params (s : State) (v : Byte) : (s.setA v).params = s.params := rfl
@[simp] theorem State.setA_intSource (s : State) (v : Byte) : (s.setA v).intSource = s.intSource := rfl
@[simp] theorem State.setA_busAnswers (s : State) (v : Byte) : (s.setA v).busAnswers = s.busAnswers := rfl
@[simp] theorem State.setA_draws (s : State) (v : Byte) : (s.setA v).draws = s.draws := rfl
@[simp] theorem State.setA_events (s : State) (v : Byte) : (s.setA v).events = s.events := rfl

@[simp] theorem State.setB_a (s : State) (v : Byte) : (s.setB v).a = s.a := rfl
@[simp] theorem State.setB_b (s : State) (v : Byte) : (s.setB v).b = v := rfl
@[simp] theorem State.setB_c (s : State) (v : Byte) : (s.setB v).c = s.c := rfl
@[simp] theorem State.setB_d (s : State) (v : Byte) : (s.setB v).d = s.d := rfl
@[simp] theorem State.setB_e (s : State) (v : Byte) : (s.setB v).e = s.e := rfl
@[simp] theorem State.setB_h (s : State) (v : Byte) : (s.setB v).h = s.h := rfl
@[simp] theorem State.setB_l (s : State) (v : Byte) : (s.setB v).l = s.l := rfl
@[simp] theorem State.setB_flags (s : State) (v : Byte) : (s.setB v).flags = s.flags := rfl
@[simp] theorem State.setB_sp (s : State) (v : Byte) : (s.setB v).sp = s.sp := rfl
@[simp] theorem State.setB_pc (s : State) (v : Byte) : (s.setB v).pc = s.pc := rfl
@[simp] theorem State.setB_inte (s : State) (v : Byte) : (s.setB v).inte = s.inte := rfl
@[simp] theorem State.setB_eiWait (s : State) (v : Byte) : (s.setB v).eiWait = s.eiWait := rfl
@[simp] theorem State.setB_halted (s : State) (v : Byte) : (s.setB v).halted = s.halted := rfl
@[simp] theorem State.setB_mem (s : State) (v : Byte) : (s.setB v).mem = s.mem := rfl
@[simp] theorem State.setB_memMap (s : State) (v : Byte) : (s.setB v).memMap = s.memMap := rfl
@[simp] theorem State.setB_params (s : State) (v : Byte) : (s.setB v).params = s.params := rfl
@[simp] theorem State.setB_intSource (s : State) (v : Byte) : (s.setB v).intSource = s.intSource := rfl
@[simp] theorem State.setB_busAnswers (s : State) (v : Byte) : (s.setB v).busAnswers = s.busAnswers := rfl
@[simp] theorem State.setB_draws (s : State) (v : Byte) : (s.setB v).draws = s.draws := rfl
@[simp] theorem State.setB_events (s : State) (v : Byte) : (s.setB v).events = s.events := rfl

@[simp] theorem State.setC_a (s : State) (v : Byte) : (s.setC v).a = s.a := rfl
@[simp] theorem State.setC_b (s : State) (v : Byte) : (s.setC v).b = s.b := rfl
@[simp] theorem State.setC_c (s : State) (v : Byte) : (s.setC v).c = v := rfl
@[simp] theorem State.setC_d (s : State) (v : Byte) : (s.setC v).d = s.d := rfl
@[simp] theorem State.setC_e (s : State) (v : Byte) : (s.setC v).e = s.e := rfl
@[simp] theorem State.setC_h (s : State) (v : Byte) : (s.setC v).h = s.h := rfl
@[simp] theorem State.setC_l (s : State) (v : Byte) : (s.setC v).l = s.l := rfl
@[simp] theorem State.setC_flags (s : State) (v : Byte) : (s.setC v).flags = s.flags := rfl
@[simp] theorem State.setC_sp (s : State) (v : Byte) : (s.setC v).sp = s.sp := rfl
@[simp] theorem State.setC_pc (s : State) (v : Byte) : (s.setC v).pc = s.pc := rfl
@[simp] theorem State.setC_inte (s : State) (v : Byte) : (s.setC v).inte = s.inte := rfl
@[simp] theorem State.setC_eiWait (s : State) (v : Byte) : (s.setC v).eiWait = s.eiWait := rfl
@[simp] theorem State.setC_halted (s : State) (v : Byte) : (s.setC v).halted = s.halted := rfl
@[simp] theorem State.setC_mem (s : State) (v : Byte) : (s.setC v).mem = s.mem := rfl
@[simp] theorem State.setC_memMap (s : State) (v : Byte) : (s.setC v).memMap = s.memMap := rfl
@[simp] theorem State.setC_params (s : State) (v : Byte) : (s.setC v).params = s.params := rfl
@[simp] theorem State.setC_intSource (s : State) (v : Byte) : (s.setC v).intSource = s.intSource := rfl
@[simp] theorem State.setC_busAnswers (s : State) (v : Byte) : (s.setC v).busAnswers = s.busAnswers := rfl
@[simp] theorem State.setC_draws (s : State) (v : Byte) : (s.setC v).draws = s.draws := rfl
@[simp] theorem State.setC_events (s : State) (v : Byte) : (s.setC v).events = s.events := rfl

@[simp] theorem State.setD_a (s : State) (v : Byte) : (s.setD v).a = s.a := rfl
@[simp] theorem State.setD_b (s : State) (v : Byte) : (s.setD v).b = s.b := rfl
@[simp] theorem State.setD_c (s : State) (v : Byte) : (s.setD v).c = s.c := rfl
@[simp] theorem State.setD_d (s : State) (v : Byte) : (s.setD v).d = v := rfl
@[simp] theorem State.setD_e (s : State) (v : Byte) : (s.setD v).e = s.e := rfl
@[simp] theorem State.setD_h (s : State) (v : Byte) : (s.setD v).h = s.h := rfl
@[simp] theorem State.setD_l (s : State) (v : Byte) : (s.setD v).l = s.l := rfl
@[simp] theorem State.setD_flags (s : State) (v : Byte) : (s.setD v).flags = s.flags := rfl
@[simp] theorem State.setD_sp (s : State) (v : Byte) : (s.setD v).sp = s.sp := rfl
@[simp] theorem State.setD_pc (s : State) (v : Byte) : (s.setD v).pc = s.pc := rfl
@[simp] theorem State.setD_inte (s : State) (v : Byte) : (s.setD v).inte = s.inte := rfl
@[simp] theorem State.setD_eiWait (s : State) (v : Byte) : (s.setD v).eiWait = s.eiWait := rfl
@[simp] theorem State.setD_halted (s : State) (v : Byte) : (s.setD v).halted = s.halted := rfl
@[simp] theorem State.setD_mem (s : State) (v : Byte) : (s.setD v).mem = s.mem := rfl
@[simp] theorem State.setD_memMap (s : State) (v : Byte) : (s.setD v).memMap = s.memMap := rfl
@[simp] theorem State.setD_params (s : State) (v : Byte) : (s.setD v).params = s.params := rfl
@[simp] theorem State.setD_intSource (s : State) (v : Byte) : (s.setD v).intSource = s.intSource := rfl
@[simp] theorem State.setD_busAnswers (s : State) (v : Byte) : (s.setD v).busAnswers = s.busAnswers := rfl
@[simp] theorem State.setD_draws (s : State) (v : Byte) : (s.setD v).draws = s.draws := rfl
@[simp] theorem State.setD_events (s : State) (v : Byte) : (s.setD v).events = s.events := rfl

@[simp] theorem State.setE_a (s : State) (v : Byte) : (s.setE v).a = s.a := rfl
@[simp] theorem State.setE_b (s : State) (v : Byte) : (s.setE v).b = s.b := rfl
@[simp] theorem State.setE_c (s : State) (v : Byte) : (s.setE v).c = s.c := rfl
@[simp] theorem State.setE_d (s : State) (v : Byte) : (s.setE v).d = s.d := rfl
@[simp] theorem State.setE_e (s : State) (v : Byte) : (s.setE v).e = v := rfl
@[simp] theorem State.setE_h (s : State) (v : Byte) : (s.setE v).h = s.h := rfl
@[simp] theorem State.setE_l (s : State) (v : Byte) : (s.setE v).l = s.l := rfl
@[simp] theorem State.setE_flags (s : State) (v : Byte) : (s.setE v).flags = s.flags := rfl
@[simp] theorem State.setE_sp (s : State) (v : Byte) : (s.setE v).sp = s.sp := rfl
@[simp] theorem State.setE_pc (s : State) (v : Byte) : (s.setE v).pc = s.pc := rfl
@[simp] theorem State.setE_inte (s : State) (v : Byte) : (s.setE v).inte = s.inte := rfl
@[simp] theorem State.setE_eiWait (s : State) (v : Byte) : (s.setE v).eiWait = s.eiWait := rfl
@[simp] theorem State.setE_halted (s : State) (v : Byte) : (s.setE v).halted = s.halted := rfl
@[simp] theorem State.setE_mem (s : State) (v : Byte) : (s.setE v).mem = s.mem := rfl
@[simp] theorem State.setE_memMap (s : State) (v : Byte) : (s.setE v).memMap = s.memMap := rfl
@[simp] theorem State.setE_params (s : State) (v : Byte) : (s.setE v).params = s.params := rfl
@[simp] theorem State.setE_intSource (s : State) (v : Byte) : (s.setE v).intSource = s.intSource := rfl
@[simp] theorem State.setE_busAnswers (s : State) (v : Byte) : (s.setE v).busAnswers = s.busAnswers := rfl
@[simp] theorem State.setE_draws (s : State) (v : Byte) : (s.setE v).draws = s.draws := rfl
@[simp] theorem State.setE_events (s : State) (v : Byte) : (s.setE v).events = s.events := rfl

@[simp] theorem State.setH_a (s : State) (v : Byte) : (s.setH v).a = s.a := rfl
@[simp] theorem State.setH_b (s : State) (v : Byte) : (s.setH v).b = s.b := rfl
@[simp] theorem State.setH_c (s : State) (v : Byte) : (s.setH v).c = s.c := rfl
@[simp] theorem State.setH_d (s : State) (v : Byte) : (s.setH v).d = s.d := rfl
@[simp] theorem State.setH_e (s : State) (v : Byte) : (s.setH v).e = s.e := rfl
@[simp] theorem State.setH_h (s : State) (v : Byte) : (s.setH v).h = v := rfl
@[simp] theorem State.setH_l (s : State) (v : Byte) : (s.setH v).l = s.l := rfl
@[simp] theorem State.setH_flags (s : State) (v : Byte) : (s.setH v).flags = s.flags := rfl
@[simp] theorem State.setH_sp (s : State) (v : Byte) : (s.setH v).sp = s.sp := rfl
@[simp] theorem State.setH_pc (s : State) (v : Byte) : (s.setH v).pc = s.pc := rfl
@[simp] theorem State.setH_inte (s : State) (v : Byte) : (s.setH v).inte = s.inte := rfl
@[simp] theorem State.setH_eiWait (s : State) (v : Byte) : (s.setH v).eiWait = s.eiWait := rfl
@[simp] theorem State.setH_halted (s : State) (v : Byte) : (s.setH v).halted = s.halted := rfl
@[simp] theorem State.setH_mem (s : State) (v : Byte) : (s.setH v).mem = s.mem := rfl
@[simp] theorem State.setH_memMap (s : State) (v : Byte) : (s.setH v).memMap = s.memMap := rfl
@[simp] theorem State.setH_params (s : State) (v : Byte) : (s.setH v).params = s.params := rfl
@[simp] theorem State.setH_intSource (s : State) (v : Byte) : (s.setH v).intSource = s.intSource := rfl
@[simp] theorem State.setH_busAnswers (s : State) (v : Byte) : (s.setH v).busAnswers = s.busAnswers := rfl
@[simp] theorem State.setH_draws (s : State) (v : Byte) : (s.setH v).draws = s.draws := rfl
@[simp] theorem State.setH_events (s : State) (v : Byte) : (s.setH v).events = s.events := rfl

@[simp] theorem State.setL_a (s : State) (v : Byte) : (s.setL v).a = s.a := rfl
@[simp] theorem State.setL_b (s : State) (v : Byte) : (s.setL v).b = s.b := rfl
@[simp] theorem State.setL_c (s : State) (v : Byte) : (s.setL v).c = s.c := rfl
@[simp] theorem State.setL_d (s : State) (v : Byte) : (s.setL v).d = s.d := rfl
@[simp] theorem State.setL_e (s : State) (v : Byte) : (s.setL v).e = s.e := rfl
@[simp] theorem State.setL_h (s : State) (v : Byte) : (s.setL v).h = s.h := rfl
@[simp] theorem State.setL_l (s : State) (v : Byte) : (s.setL v).l = v := rfl
@[simp] theorem State.setL_flags (s : State) (v : Byte) : (s.setL v).flags = s.flags := rfl
@[simp] theorem State.setL_sp (s : State) (v : Byte) : (s.setL v).sp = s.sp := rfl
@[simp] theorem State.setL_pc (s : State) (v : Byte) : (s.setL v).pc = s.pc := rfl
@[simp] theorem State.setL_inte (s : State) (v : Byte) : (s.setL v).inte = s.inte := rfl
@[simp] theorem State.setL_eiWait (s : State) (v : Byte) : (s.setL v).eiWait = s.eiWait := rfl
@[simp] theorem State.setL_halted (s : State) (v : Byte) : (s.setL v).halted = s.halted := rfl
@[simp] theorem State.setL_mem (s : State) (v : Byte) : (s.setL v).mem = s.mem := rfl
@[simp] theorem State.setL_memMap (s : State) (v : Byte) : (s.setL v).memMap = s.memMap := rfl
@[simp] theorem State.setL_params (s : State) (v : Byte) : (s.setL v).params = s.params := rfl
@[simp] theorem State.setL_intSource (s : State) (v : Byte) : (s.setL v).intSource = s.intSource := rfl
@[simp] theorem State.setL_busAnswers (s : State) (v : Byte) : (s.setL v).busAnswers = s.busAnswers := rfl
@[simp] theorem State.setL_draws (s : State) (v : Byte) : (s.setL v).draws = s.draws := rfl
@[simp] theorem State.setL_events (s : State) (v : Byte) : (s.setL v).events = s.events := rfl

@[simp] theorem State.setFlags_a (s : State) (v : Flags) : (s.setFlags v).a = s.a := rfl
@[simp] theorem State.setFlags_b (s : State) (v : Flags) : (s.setFlags v).b = s.b := rfl
@[simp] theorem State.setFlags_c (s : State) (v : Flags) : (s.setFlags v).c = s.c := rfl
@[simp] theorem State.setFlags_d (s : State) (v : Flags) : (s.setFlags v).d = s.d := rfl
@[simp] theorem State.setFlags_e (s : State) (v : Flags) : (s.setFlags v).e = s.e := rfl
@[simp] theorem State.setFlags_h (s : State) (v : Flags) : (s.setFlags v).h = s.h := rfl
@[simp] theorem State.setFlags_l (s : State) (v : Flags) : (s.setFlags v).l = s.l := rfl
@[simp] theorem State.setFlags_flags (s : State) (v : Flags) : (s.setFlags v).flags = v := rfl
@[simp] theorem State.setFlags_sp (s : State) (v : Flags) : (s.setFlags v).sp = s.sp := rfl
@[simp] theorem State.setFlags_pc (s : State) (v : Flags) : (s.setFlags v).pc = s.pc := rfl
@[simp] theorem State.setFlags_inte (s : State) (v : Flags) : (s.setFlags v).inte = s.inte := rfl
@[simp] theorem State.setFlags_eiWait (s : State) (v : Flags) : (s.setFlags v).eiWait = s.eiWait := rfl
@[simp] theorem State.setFlags_halted (s : State) (v : Flags) : (s.setFlags v).halted = s.halted := rfl
@[simp] theorem State.setFlags_mem (s : State) (v : Flags) : (s.setFlags v).mem = s.mem := rfl
@[simp] theorem State.setFlags_memMap (s : State) (v : Flags) : (s.setFlags v).memMap = s.memMap := rfl
@[simp] theorem State.setFlags_params (s : State) (v : Flags) : (s.setFlags v).params = s.params := rfl
@[simp] theorem State.setFlags_intSource (s : State) (v : Flags) : (s.setFlags v).intSource = s.intSource := rfl
@[simp] theorem State.setFlags_busAnswers (s : State) (v : Flags) : (s.setFlags v).busAnswers = s.busAnswers := rfl
@[simp] theorem State.setFlags_draws (s : State) (v : Flags) : (s.setFlags v).draws = s.draws := rfl
@[simp] theorem State.setFlags_events (s : State) (v : Flags) : (s.setFlags v).events = s.events := rfl

@[simp] theorem State.setSp_a (s : State) (v : Addr) : (s.setSp v).a = s.a := rfl
@[simp] theorem State.setSp_b (s : State) (v : Addr) : (s.setSp v).b = s.b := rfl
@[simp] theorem State.setSp_c (s : State) (v : Addr) : (s.setSp v).c = s.c := rfl
@[simp] theorem State.setSp_d (s : State) (v : Addr) : (s.setSp v).d = s.d := rfl
@[simp] theorem State.setSp_e (s : State) (v : Addr) : (s.setSp v).e = s.e := rfl
@[simp] theorem State.setSp_h (s : State) (v : Addr) : (s.setSp v).h = s.h := rfl
@[simp] theorem State.setSp_l (s : State) (v : Addr) : (s.setSp v).l = s.l := rfl
@[simp] theorem State.setSp_flags (s : State) (v : Addr) : (s.setSp v).flags = s.flags := rfl
@[simp] theorem State.setSp_sp (s : State) (v : Addr) : (s.setSp v).sp = v := rfl
@[simp] theorem State.setSp_pc (s : State) (v : Addr) : (s.setSp v).pc = s.pc := rfl
@[simp] theorem State.setSp_inte (s : State) (v : Addr) : (s.setSp v).inte = s.inte := rfl
@[simp] theorem State.setSp_eiWait (s : State) (v : Addr) : (s.setSp v).eiWait = s.eiWait := rfl
@[simp] theorem State.setSp_halted (s : State) (v : Addr) : (s.setSp v).halted = s.halted := rfl
@[simp] theorem State.setSp_mem (s : State) (v : Addr) : (s.setSp v).mem = s.mem := rfl
@[simp] theorem State.setSp_memMap (s : State) (v : Addr) : (s.setSp v).memMap = s.memMap := rfl
@[simp] theorem State.setSp_params (s : State) (v : Addr) : (s.setSp v).params = s.params := rfl
@[simp] theorem State.setSp_intSource (s : State) (v : Addr) : (s.setSp v).intSource = s.intSource := rfl
@[simp] theorem State.setSp_busAnswers (s : State) (v : Addr) : (s.setSp v).busAnswers = s.busAnswers := rfl
@[simp] theorem State.setSp_draws (s : State) (v : Addr) : (s.setSp v).draws = s.draws := rfl
@[simp] theorem State.setSp_events (s : State) (v : Addr) : (s.setSp v).events = s.events := rfl

@[simp] theorem State.setPc_a (s : State) (v : Addr) : (s.setPc v).a = s.a := rfl
@[simp] theorem State.setPc_b (s : State) (v : Addr) : (s.setPc v).b = s.b := rfl
@[simp] theorem State.setPc_c (s : State) (v : Addr) : (s.setPc v).c = s.c := rfl
@[simp] theorem State.setPc_d (s : State) (v : Addr) : (s.setPc v).d = s.d := rfl
@[simp] theorem State.setPc_e (s : State) (v : Addr) : (s.setPc v).e = s.e := rfl
@[simp] theorem State.setPc_h (s : State) (v : Addr) : (s.setPc v).h = s.h := rfl
@[simp] theorem State.setPc_l (s : State) (v : Addr) : (s.setPc v).l = s.l := rfl
@[simp] theorem State.setPc_flags (s : State) (v : Addr) : (s.setPc v).flags = s.flags := rfl
@[simp] theorem State.setPc_sp (s : State) (v : Addr) : (s.setPc v).sp = s.sp := rfl
@[simp] theorem State.setPc_pc (s : State) (v : Addr) : (s.setPc v).pc = v := rfl
@[simp] theorem State.setPc_inte (s : State) (v : Addr) : (s.setPc v).inte = s.inte := rfl
@[simp] theorem State.setPc_eiWait (s : State) (v : Addr) : (s.setPc v).eiWait = s.eiWait := rfl
@[simp] theorem State.setPc_halted (s : State) (v : Addr) : (s.setPc v).halted = s.halted := rfl
@[simp] theorem State.setPc_mem (s : State) (v : Addr) : (s.setPc v).mem = s.mem := rfl
@[simp] theorem State.setPc_memMap (s : State) (v : Addr) : (s.setPc v).memMap = s.memMap := rfl
@[simp] theorem State.setPc_params (s : State) (v : Addr) : (s.setPc v).params = s.params := rfl
@[simp] theorem State.setPc_intSource (s : State) (v : Addr) : (s.setPc v).intSource = s.intSource := rfl
@[simp] theorem State.setPc_busAnswers (s : State) (v : Addr) : (s.setPc v).busAnswers = s.busAnswers := rfl
@[simp] theorem State.setPc_draws (s : State) (v : Addr) : (s.setPc v).draws = s.draws := rfl
@[simp] theorem State.setPc_events (s : State) (v : Addr) : (s.setPc v).events = s.events := rfl

@[simp] theorem State.setInte_a (s : State) (v : Bool) : (s.setInte v).a = s.a := rfl
@[simp] theorem State.setInte_b (s : State) (v : Bool) : (s.setInte v).b = s.b := rfl
@[simp] theorem State.setInte_c (s : State) (v : Bool) : (s.setInte v).c = s.c := rfl
@[simp] theorem State.setInte_d (s : State) (v : Bool) : (s.setInte v).d = s.d := rfl
@[simp] theorem State.setInte_e (s : State) (v : Bool) : (s.setInte v).e = s.e := rfl
@[simp] theorem State.setInte_h (s : State) (v : Bool) : (s.setInte v).h = s.h := rfl
@[simp] theorem State.setInte_l (s : State) (v : Bool) : (s.setInte v).l = s.l := rfl
@[simp] theorem State.setInte_flags (s : State) (v : Bool) : (s.setInte v).flags = s.flags := rfl
@[simp] theorem State.setInte_sp (s : State) (v : Bool) : (s.setInte v).sp = s.sp := rfl
@[simp] theorem State.setInte_pc (s : State) (v : Bool) : (s.setInte v).pc = s.pc := rfl
@[simp] theorem State.setInte_inte (s : State) (v : Bool) : (s.setInte v).inte = v := rfl
@[simp] theorem State.setInte_eiWait (s : State) (v : Bool) : (s.setInte v).eiWait = s.eiWait := rfl
@[simp] theorem State.setInte_halted (s : State) (v : Bool) : (s.setInte v).halted = s.halted := rfl
@[simp] theorem State.setInte_mem (s : State) (v : Bool) : (s.setInte v).mem = s.mem := rfl
@[simp] theorem State.setInte_memMap (s : State) (v : Bool) : (s.setInte v).memMap = s.memMap := rfl
@[simp] theorem State.setInte_params (s : State) (v : Bool) : (s.setInte v).params = s.params := rfl
@[simp] theorem State.setInte_intSource (s : State) (v : Bool) : (s.setInte v).intSource = s.intSource := rfl
@[simp] theorem State.setInte_busAnswers (s : State) (v : Bool) : (s.setInte v).busAnswers = s.busAnswers := rfl
@[simp] theorem State.setInte_draws (s : State) (v : Bool) : (s.setInte v).draws = s.draws := rfl
@[simp] theorem State.setInte_events (s : State) (v : Bool) : (s.setInte v).events = s.events := rfl

@[simp] theorem State.setEiWait_a (s : State) (v : Nat) : (s.setEiWait v).a = s.a := rfl
@[simp] theorem State.setEiWait_b (s : State) (v : Nat) : (s.setEiWait v).b = s.b := rfl
@[simp] theorem State.setEiWait_c (s : State) (v : Nat) : (s.setEiWait v).c = s.c := rfl
@[simp] theorem State.setEiWait_d (s : State) (v : Nat) : (s.setEiWait v).d = s.d := rfl
@[simp] theorem State.setEiWait_e (s : State) (v : Nat) : (s.setEiWait v).e = s.e := rfl
@[simp] theorem State.setEiWait_h (s : State) (v : Nat) : (s.setEiWait v).h = s.h := rfl
@[simp] theorem State.setEiWait_l (s : State) (v : Nat) : (s.setEiWait v).l = s.l := rfl
@[simp] theorem State.setEiWait_flags (s : State) (v : Nat) : (s.setEiWait v).flags = s.flags := rfl
@[simp] theorem State.setEiWait_sp (s : State) (v : Nat) : (s.setEiWait v).sp = s.sp := rfl
@[simp] theorem State.setEiWait_pc (s : State) (v : Nat) : (s.setEiWait v).pc = s.pc := rfl
@[simp] theorem State.setEiWait_inte (s : State) (v : Nat) : (s.setEiWait v).inte = s.inte := rfl
@[simp] theorem State.setEiWait_eiWait (s : State) (v : Nat) : (s.setEiWait v).eiWait = v := rfl
@[simp] theorem State.setEiWait_halted (s : State) (v : Nat) : (s.setEiWait v).halted = s.halted := rfl
@[simp] theorem State.setEiWait_mem (s : State) (v : Nat) : (s.setEiWait v).mem = s.mem := rfl
@[simp] theorem State.setEiWait_memMap (s : State) (v : Nat) : (s.setEiWait v).memMap = s.memMap := rfl
@[simp] theorem State.setEiWait_params (s : State) (v : Nat) : (s.setEiWait v).params = s.params := rfl
@[simp] theorem State.setEiWait_intSource (s : State) (v : Nat) : (s.setEiWait v).intSource = s.intSource := rfl
@[simp] theorem State.setEiWait_busAnswers (s : State) (v : Nat) : (s.setEiWait v).busAnswers = s.busAnswers := rfl
@[simp] theorem State.setEiWait_draws (s : State) (v : Nat) : (s.setEiWait v).draws = s.draws := rfl
@[simp] theorem State.setEiWait_events (s : State) (v : Nat) : (s.setEiWait v).events = s.events := rfl

@[simp] theorem State.setHalted_a (s : State) (v : Bool) : (s.setHalted v).a = s.a := rfl
@[simp] theorem State.setHalted_b (s : State) (v : Bool) : (s.setHalted v).b = s.b := rfl
@[simp] theorem State.setHalted_c (s : State) (v : Bool) : (s.setHalted v).c = s.c := rfl
@[simp] theorem State.setHalted_d (s : State) (v : Bool) : (s.setHalted v).d = s.d := rfl
@[simp] theorem State.setHalted_e (s : State) (v : Bool) : (s.setHalted v).e = s.e := rfl
@[simp] theorem State.setHalted_h (s : State) (v : Bool) : (s.setHalted v).h = s.h := rfl
@[simp] theorem State.setHalted_l (s : State) (v : Bool) : (s.setHalted v).l = s.l := rfl
@[simp] theorem State.setHalted_flags (s : State) (v : Bool) : (s.setHalted v).flags = s.flags := rfl
@[simp] theorem State.setHalted_sp (s : State) (v : Bool) : (s.setHalted v).sp = s.sp := rfl
@[simp] theorem State.setHalted_pc (s : State) (v : Bool) : (s.setHalted v).pc = s.pc := rfl
@[simp] theorem State.setHalted_inte (s : State) (v : Bool) : (s.setHalted v).inte = s.inte := rfl
@[simp] theorem State.setHalted_eiWait (s : State) (v : Bool) : (s.setHalted v).eiWait = s.eiWait := rfl
@[simp] theorem State.setHalted_halted (s : State) (v : Bool) : (s.setHalted v).halted = v := rfl
@[simp] theorem State.setHalted_mem (s : State) (v : Bool) : (s.setHalted v).mem = s.mem := rfl
@[simp] theorem State.setHalted_memMap (s : State) (v : Bool) : (s.setHalted v).memMap = s.memMap := rfl
@[simp] theorem State.setHalted_params (s : State) (v : Bool) : (s.setHalted v).params = s.params := rfl
@[simp] theorem State.setHalted_intSource (s : State) (v : Bool) : (s.setHalted v).intSource = s.intSource := rfl
@[simp] theorem State.setHalted_busAnswers (s : State) (v : Bool) : (s.setHalted v).busAnswers = s.busAnswers := rfl
@[simp] theorem State.setHalted_draws (s : State) (v : Bool) : (s.setHalted v).draws = s.draws := rfl
@[simp] theorem State.setHalted_events (s : State) (v : Bool) : (s.setHalted v).events = s.events := rfl

@[simp] theorem State.setMem_a (s : State) (v : Memory) : (s.setMem v).a = s.a := rfl
@[simp] theorem State.setMem_b (s : State) (v : Memory) : (s.setMem v).b = s.b := rfl
@[simp] theorem State.setMem_c (s : State) (v : Memory) : (s.setMem v).c = s.c := rfl
@[simp] theorem State.setMem_d (s : State) (v : Memory) : (s.setMem v).d = s.d := rfl
@[simp] theorem State.setMem_e (s : State) (v : Memory) : (s.setMem v).e = s.e := rfl
@[simp] theorem State.setMem_h (s : State) (v : Memory) : (s.setMem v).h = s.h := rfl
@[simp] theorem State.setMem_l (s : State) (v : Memory) : (s.setMem v).l = s.l := rfl
@[simp] theorem State.setMem_flags (s : State) (v : Memory) : (s.setMem v).flags = s.flags := rfl
@[simp] theorem State.setMem_sp (s : State) (v : Memory) : (s.setMem v).sp = s.sp := rfl
@[simp] theorem State.setMem_pc (s : State) (v : Memory) : (s.setMem v).pc = s.pc := rfl
@[simp] theorem State.setMem_inte (s : State) (v : Memory) : (s.setMem v).inte = s.inte := rfl
@[simp] theorem State.setMem_eiWait (s : State) (v : Memory) : (s.setMem v).eiWait = s.eiWait := rfl
@[simp] theorem State.setMem_halted (s : State) (v : Memory) : (s.setMem v).halted = s.halted := rfl
@[simp] theorem State.setMem_mem (s : State) (v : Memory) : (s.setMem v).mem = v := rfl
@[simp] theorem State.setMem_memMap (s : State) (v : Memory) : (s.setMem v).memMap = s.memMap := rfl
@[simp] theorem State.setMem_params (s : State) (v : Memory) : (s.setMem v).params = s.params := rfl
@[simp] theorem State.setMem_intSource (s : State) (v : Memory) : (s.setMem v).intSource = s.intSource := rfl
@[simp] theorem State.setMem_busAnswers (s : State) (v : Memory) : (s.setMem v).busAnswers = s.busAnswers := rfl
@[simp] theorem State.setMem_draws (s : State) (v : Memory) : (s.setMem v).draws = s.draws := rfl
@[simp] theorem State.setMem_events (s : State) (v : Memory) : (s.setMem v).events = s.events := rfl

@[simp] theorem State.setMemMap_a (s : State) (v : List Region) : (s.setMemMap v).a = s.a := rfl
@[simp] theorem State.setMemMap_b (s : State) (v : List Region) : (s.setMemMap v).b = s.b := rfl
@[simp] theorem State.setMemMap_c (s : State) (v : List Region) : (s.setMemMap v).c = s.c := rfl
@[simp] theorem State.setMemMap_d (s : State) (v : List Region) : (s.setMemMap v).d = s.d := rfl
@[simp] theorem State.setMemMap_e (s : State) (v : List Region) : (s.setMemMap v).e = s.e := rfl
@[simp] theorem State.setMemMap_h (s : State) (v : List Region) : (s.setMemMap v).h = s.h := rfl
@[simp] theorem State.setMemMap_l (s : State) (v : List Region) : (s.setMemMap v).l = s.l := rfl
@[simp] theorem State.setMemMap_flags (s : State) (v : List Region) : (s.setMemMap v).flags = s.flags := rfl
@[simp] theorem State.setMemMap_sp (s : State) (v : List Region) : (s.setMemMap v).sp = s.sp := rfl
@[simp] theorem State.setMemMap_pc (s : State) (v : List Region) : (s.setMemMap v).pc = s.pc := rfl
@[simp] theorem State.setMemMap_inte (s : State) (v : List Region) : (s.setMemMap v).inte = s.inte := rfl
@[simp] theorem State.setMemMap_eiWait (s : State) (v : List Region) : (s.setMemMap v).eiWait = s.eiWait := rfl
@[simp] theorem State.setMemMap_halted (s : State) (v : List Region) : (s.setMemMap v).halted = s.halted := rfl
@[simp] theorem State.setMemMap_mem (s : State) (v : List Region) : (s.setMemMap v).mem = s.mem := rfl
@[simp] theorem State.setMemMap_memMap (s : State) (v : List Region) : (s.setMemMap v).memMap = v := rfl
@[simp] theorem State.setMemMap_params (s : State) (v : List Region) : (s.setMemMap v).params = s.params := rfl
@[simp] theorem State.setMemMap_intSource (s : State) (v : List Region) : (s.setMemMap v).intSource = s.intSource := rfl
@[simp] theorem State.setMemMap_busAnswers (s : State) (v : List Region) : (s.setMemMap v).busAnswers = s.busAnswers := rfl
@[simp] theorem State.setMemMap_draws (s : State) (v : List Region) : (s.setMemMap v).draws = s.draws := rfl
@[simp] theorem State.setMemMap_events (s : State) (v : List Region) : (s.setMemMap v).events = s.events := rfl

@[simp] theorem State.setIntSource_a (s : State) (v : IntSource) : (s.setIntSource v).a = s.a := rfl
@[simp] theorem State.setIntSource_b (s : State) (v : IntSource) : (s.setIntSource v).b = s.b := rfl
@[simp] theorem State.setIntSource_c (s : State) (v : IntSource) : (s.setIntSource v).c = s.c := rfl
@[simp] theorem State.setIntSource_d (s : State) (v : IntSource) : (s.setIntSource v).d = s.d := rfl
@[simp] theorem State.setIntSource_e (s : State) (v : IntSource) : (s.setIntSource v).e = s.e := rfl
@[simp] theorem State.setIntSource_h (s : State) (v : IntSource) : (s.setIntSource v).h = s.h := rfl
@[simp] theorem State.setIntSource_l (s : State) (v : IntSource) : (s.setIntSource v).l = s.l := rfl
@[simp] theorem State.setIntSource_flags (s : State) (v : IntSource) : (s.setIntSource v).flags = s.flags := rfl
@[simp] theorem State.setIntSource_sp (s : State) (v : IntSource) : (s.setIntSource v).sp = s.sp := rfl
@[simp] theorem State.setIntSource_pc (s : State) (v : IntSource) : (s.setIntSource v).pc = s.pc := rfl
@[simp] theorem State.setIntSource_inte (s : State) (v : IntSource) : (s.setIntSource v).inte = s.inte := rfl
@[simp] theorem State.setIntSource_eiWait (s : State) (v : IntSource) : (s.setIntSource v).eiWait = s.eiWait := rfl
@[simp] theorem State.setIntSource_halted (s : State) (v : IntSource) : (s.setIntSource v).halted = s.halted := rfl
@[simp] theorem State.setIntSource_mem (s : State) (v : IntSource) : (s.setIntSource v).mem = s.mem := rfl
@[simp] theorem State.setIntSource_memMap (s : State) (v : IntSource) : (s.setIntSource v).memMap = s.memMap := rfl
@[simp] theorem State.setIntSource_params (s : State) (v : IntSource) : (s.setIntSource v).params = s.params := rfl
@[simp] theorem State.setIntSource_intSource (s : State) (v : IntSource) : (s.setIntSource v).intSource = v := rfl
@[simp] theorem State.setIntSource_busAnswers (s : State) (v : IntSource) : (s.setIntSource v).busAnswers = s.busAnswers := rfl
@[simp] theorem State.setIntSource_draws (s : State) (v : IntSource) : (s.setIntSource v).draws = s.draws := rfl
@[simp] theorem State.setIntSource_events (s : State) (v : IntSource) : (s.setIntSource v).events = s.events := rfl

@[simp] theorem State.setBusAnswers_a (s : State) (v : List Byte) : (s.setBusAnswers v).a = s.a := rfl
@[simp] theorem State.setBusAnswers_b (s : State) (v : List Byte) : (s.setBusAnswers v).b = s.b := rfl
@[simp] theorem State.setBusAnswers_c (s : State) (v : List Byte) : (s.setBusAnswers v).c = s.c := rfl
@[simp] theorem State.setBusAnswers_d (s : State) (v : List Byte) : (s.setBusAnswers v).d = s.d := rfl
@[simp] theorem State.setBusAnswers_e (s : State) (v : List Byte) : (s.setBusAnswers v).e = s.e := rfl
@[simp] theorem State.setBusAnswers_h (s : State) (v : List Byte) : (s.setBusAnswers v).h = s.h := rfl
@[simp] theorem State.setBusAnswers_l (s : State) (v : List Byte) : (s.setBusAnswers v).l = s.l := rfl
@[simp] theorem State.setBusAnswers_flags (s : State) (v : List Byte) : (s.setBusAnswers v).flags = s.flags := rfl
@[simp] theorem State.setBusAnswers_sp (s : State) (v : List Byte) : (s.setBusAnswers v).sp = s.sp := rfl
@[simp] theorem State.setBusAnswers_pc (s : State) (v : List Byte) : (s.setBusAnswers v).pc = s.pc := rfl
@[simp] theorem State.setBusAnswers_inte (s : State) (v : List Byte) : (s.setBusAnswers v).inte = s.inte := rfl
@[simp] theorem State.setBusAnswers_eiWait (s : State) (v : List Byte) : (s.setBusAnswers v).eiWait = s.eiWait := rfl
@[simp] theorem State.setBusAnswers_halted (s : State) (v : List Byte) : (s.setBusAnswers v).halted = s.halted := rfl
@[simp] theorem State.setBusAnswers_mem (s : State) (v : List Byte) : (s.setBusAnswers v).mem = s.mem := rfl
@[simp] theorem State.setBusAnswers_memMap (s : State) (v : List Byte) : (s.setBusAnswers v).memMap = s.memMap := rfl
@[simp] theorem State.setBusAnswers_params (s : State) (v : List Byte) : (s.setBusAnswers v).params = s.params := rfl
@[simp] theorem State.setBusAnswers_intSource (s : State) (v : List Byte) : (s.setBusAnswers v).intSource = s.intSource := rfl
@[simp] theorem State.setBusAnswers_busAnswers (s : State) (v : List Byte) : (s.setBusAnswers v).busAnswers = v := rfl
@[simp] theorem State.setBusAnswers_draws (s : State) (v : List Byte) : (s.setBusAnswers v).draws = s.draws := rfl
@[simp] theorem State.setBusAnswers_events (s : State) (v : List Byte) : (s.setBusAnswers v).events = s.events := rfl

@[simp] theorem State.setDraws_a (s : State) (v : Nat) : (s.setDraws v).a = s.a := rfl
@[simp] theorem State.setDraws_b (s : State) (v : Nat) : (s.setDraws v).b = s.b := rfl
@[simp] theorem State.setDraws_c (s : State) (v : Nat) : (s.setDraws v).c = s.c := rfl
@[simp] theorem State.setDraws_d (s : State) (v : Nat) : (s.setDraws v).d = s.d := rfl
@[simp] theorem State.setDraws_e (s : State) (v : Nat) : (s.setDraws v).e = s.e := rfl
@[simp] theorem State.setDraws_h (s : State) (v : Nat) : (s.setDraws v).h = s.h := rfl
@[simp] theorem State.setDraws_l (s : State) (v : Nat) : (s.setDraws v).l = s.l := rfl
@[simp] theorem State.setDraws_flags (s : State) (v : Nat) : (s.setDraws v).flags = s.flags := rfl
@[simp] theorem State.setDraws_sp (s : State) (v : Nat) : (s.setDraws v).sp = s.sp := rfl
@[simp] theorem State.setDraws_pc (s : State) (v : Nat) : (s.setDraws v).pc = s.pc := rfl
@[simp] theorem State.setDraws_inte (s : State) (v : Nat) : (s.setDraws v).inte = s.inte := rfl
@[simp] theorem State.setDraws_eiWait (s : State) (v : Nat) : (s.setDraws v).eiWait = s.eiWait := rfl
@[simp] theorem State.setDraws_halted (s : State) (v : Nat) : (s.setDraws v).halted = s.halted := rfl
@[simp] theorem State.setDraws_mem (s : State) (v : Nat) : (s.setDraws v).mem = s.mem := rfl
@[simp] theorem State.setDraws_memMap (s : State) (v : Nat) : (s.setDraws v).memMap = s.memMap := rfl
@[simp] theorem State.setDraws_params (s : State) (v : Nat) : (s.setDraws v).params = s.params := rfl
@[simp] theorem State.setDraws_intSource (s : State) (v : Nat) : (s.setDraws v).intSource = s.intSource := rfl
@[simp] theorem State.setDraws_busAnswers (s : State) (v : Nat) : (s.setDraws v).busAnswers = s.busAnswers := rfl
@[simp] theorem State.setDraws_draws (s : State) (v : Nat) : (s.setDraws v).draws = v := rfl
@[simp] theorem State.setDraws_events (s : State) (v : Nat) : (s.setDraws v).events = s.events := rfl

@[simp] theorem State.setEvents_a (s : State) (v : List BusEvent) : (s.setEvents v).a = s.a := rfl
@[simp] theorem State.setEvents_b (s : State) (v : List BusEvent) : (s.setEvents v).b = s.b := rfl
@[simp] theorem State.setEvents_c (s : State) (v : List BusEvent) : (s.setEvents v).c = s.c := rfl
@[simp] theorem State.setEvents_d (s : State) (v : List BusEvent) : (s.setEvents v).d = s.d := rfl
@[simp] theorem State.setEvents_e (s : State) (v : List BusEvent) : (s.setEvents v).e = s.e := rfl
@[simp] theorem State.setEvents_h (s : State) (v : List BusEvent) : (s.setEvents v).h = s.h := rfl
@[simp] theorem State.setEvents_l (s : State) (v : List BusEvent) : (s.setEvents v).l = s.l := rfl
@[simp] theorem State.setEvents_flags (s : State) (v : List BusEvent) : (s.setEvents v).flags = s.flags := rfl
@[simp] theorem State.setEvents_sp (s : State) (v : List BusEvent) : (s.setEvents v).sp = s.sp := rfl
@[simp] theorem State.setEvents_pc (s : State) (v : List BusEvent) : (s.setEvents v).pc = s.pc := rfl
@[simp] theorem State.setEvents_inte (s : State) (v : List BusEvent) : (s.setEvents v).inte = s.inte := rfl
@[simp] theorem State.setEvents_eiWait (s : State) (v : List BusEvent) : (s.setEvents v).eiWait = s.eiWait := rfl
@[simp] theorem State.setEvents_halted (s : State) (v : List BusEvent) : (s.setEvents v).halted = s.halted := rfl
@[simp] theorem State.setEvents_mem (s : State) (v : List BusEvent) : (s.setEvents v).mem = s.mem := rfl
@[simp] theorem State.setEvents_memMap (s : State) (v : List BusEvent) : (s.setEvents v).memMap = s.memMap := rfl
@[simp] theorem State.setEvents_params (s : State) (v : List BusEvent) : (s.setEvents v).params = s.params := rfl
@[simp] theorem State.setEvents_intSource (s : State) (v : List BusEvent) : (s.setEvents v).intSource = s.intSource := rfl
@[simp] theorem State.setEvents_busAnswers (s : State) (v : List BusEvent) : (s.setEvents v).busAnswers = s.busAnswers := rfl
@[simp] theorem State.setEvents_draws (s : State) (v : List BusEvent) : (s.setEvents v).draws = s.draws := rfl
@[simp] theorem State.setEvents_events (s : State) (v : List BusEvent) : (s.setEvents v).events = v := rfl

end Sys2Proof.Machine
end

