-- ==== Sys2Proof/Laws/Frame.lean ====
section
/-! SUPPORT. What the accesses leave unchanged: one lemma per field each access keeps. -/

namespace Sys2Proof.Machine

@[simp] theorem draw_a (s : State) : (draw s).2.a = s.a := by unfold draw; split <;> rfl
@[simp] theorem draw_b (s : State) : (draw s).2.b = s.b := by unfold draw; split <;> rfl
@[simp] theorem draw_c (s : State) : (draw s).2.c = s.c := by unfold draw; split <;> rfl
@[simp] theorem draw_d (s : State) : (draw s).2.d = s.d := by unfold draw; split <;> rfl
@[simp] theorem draw_e (s : State) : (draw s).2.e = s.e := by unfold draw; split <;> rfl
@[simp] theorem draw_h (s : State) : (draw s).2.h = s.h := by unfold draw; split <;> rfl
@[simp] theorem draw_l (s : State) : (draw s).2.l = s.l := by unfold draw; split <;> rfl
@[simp] theorem draw_flags (s : State) : (draw s).2.flags = s.flags := by unfold draw; split <;> rfl
@[simp] theorem draw_sp (s : State) : (draw s).2.sp = s.sp := by unfold draw; split <;> rfl
@[simp] theorem draw_pc (s : State) : (draw s).2.pc = s.pc := by unfold draw; split <;> rfl
@[simp] theorem draw_inte (s : State) : (draw s).2.inte = s.inte := by unfold draw; split <;> rfl
@[simp] theorem draw_eiWait (s : State) : (draw s).2.eiWait = s.eiWait := by unfold draw; split <;> rfl
@[simp] theorem draw_halted (s : State) : (draw s).2.halted = s.halted := by unfold draw; split <;> rfl
@[simp] theorem draw_mem (s : State) : (draw s).2.mem = s.mem := by unfold draw; split <;> rfl
@[simp] theorem draw_memMap (s : State) : (draw s).2.memMap = s.memMap := by unfold draw; split <;> rfl
@[simp] theorem draw_params (s : State) : (draw s).2.params = s.params := by unfold draw; split <;> rfl
@[simp] theorem draw_intSource (s : State) : (draw s).2.intSource = s.intSource := by unfold draw; split <;> rfl
@[simp] theorem draw_events (s : State) : (draw s).2.events = s.events := by unfold draw; split <;> rfl

@[simp] theorem State.record_a (s : State) (e : BusEvent) : (s.record e).a = s.a := rfl
@[simp] theorem State.record_b (s : State) (e : BusEvent) : (s.record e).b = s.b := rfl
@[simp] theorem State.record_c (s : State) (e : BusEvent) : (s.record e).c = s.c := rfl
@[simp] theorem State.record_d (s : State) (e : BusEvent) : (s.record e).d = s.d := rfl
@[simp] theorem State.record_e (s : State) (e : BusEvent) : (s.record e).e = s.e := rfl
@[simp] theorem State.record_h (s : State) (e : BusEvent) : (s.record e).h = s.h := rfl
@[simp] theorem State.record_l (s : State) (e : BusEvent) : (s.record e).l = s.l := rfl
@[simp] theorem State.record_flags (s : State) (e : BusEvent) : (s.record e).flags = s.flags := rfl
@[simp] theorem State.record_sp (s : State) (e : BusEvent) : (s.record e).sp = s.sp := rfl
@[simp] theorem State.record_pc (s : State) (e : BusEvent) : (s.record e).pc = s.pc := rfl
@[simp] theorem State.record_inte (s : State) (e : BusEvent) : (s.record e).inte = s.inte := rfl
@[simp] theorem State.record_eiWait (s : State) (e : BusEvent) : (s.record e).eiWait = s.eiWait := rfl
@[simp] theorem State.record_halted (s : State) (e : BusEvent) : (s.record e).halted = s.halted := rfl
@[simp] theorem State.record_mem (s : State) (e : BusEvent) : (s.record e).mem = s.mem := rfl
@[simp] theorem State.record_memMap (s : State) (e : BusEvent) : (s.record e).memMap = s.memMap := rfl
@[simp] theorem State.record_params (s : State) (e : BusEvent) : (s.record e).params = s.params := rfl
@[simp] theorem State.record_intSource (s : State) (e : BusEvent) : (s.record e).intSource = s.intSource := rfl
@[simp] theorem State.record_busAnswers (s : State) (e : BusEvent) : (s.record e).busAnswers = s.busAnswers := rfl
@[simp] theorem State.record_draws (s : State) (e : BusEvent) : (s.record e).draws = s.draws := rfl
@[simp] theorem State.record_events (s : State) (e : BusEvent) : (s.record e).events = s.events ++ [e] := rfl

@[simp] theorem memRead_a (addr : Addr) (s : State) : (memRead addr s).2.a = s.a := by
  unfold memRead; split <;> simp
@[simp] theorem memRead_b (addr : Addr) (s : State) : (memRead addr s).2.b = s.b := by
  unfold memRead; split <;> simp
@[simp] theorem memRead_c (addr : Addr) (s : State) : (memRead addr s).2.c = s.c := by
  unfold memRead; split <;> simp
@[simp] theorem memRead_d (addr : Addr) (s : State) : (memRead addr s).2.d = s.d := by
  unfold memRead; split <;> simp
@[simp] theorem memRead_e (addr : Addr) (s : State) : (memRead addr s).2.e = s.e := by
  unfold memRead; split <;> simp
@[simp] theorem memRead_h (addr : Addr) (s : State) : (memRead addr s).2.h = s.h := by
  unfold memRead; split <;> simp
@[simp] theorem memRead_l (addr : Addr) (s : State) : (memRead addr s).2.l = s.l := by
  unfold memRead; split <;> simp
@[simp] theorem memRead_flags (addr : Addr) (s : State) : (memRead addr s).2.flags = s.flags := by
  unfold memRead; split <;> simp
@[simp] theorem memRead_sp (addr : Addr) (s : State) : (memRead addr s).2.sp = s.sp := by
  unfold memRead; split <;> simp
@[simp] theorem memRead_pc (addr : Addr) (s : State) : (memRead addr s).2.pc = s.pc := by
  unfold memRead; split <;> simp
@[simp] theorem memRead_inte (addr : Addr) (s : State) : (memRead addr s).2.inte = s.inte := by
  unfold memRead; split <;> simp
@[simp] theorem memRead_eiWait (addr : Addr) (s : State) : (memRead addr s).2.eiWait = s.eiWait := by
  unfold memRead; split <;> simp
@[simp] theorem memRead_halted (addr : Addr) (s : State) : (memRead addr s).2.halted = s.halted := by
  unfold memRead; split <;> simp
@[simp] theorem memRead_mem (addr : Addr) (s : State) : (memRead addr s).2.mem = s.mem := by
  unfold memRead; split <;> simp
@[simp] theorem memRead_memMap (addr : Addr) (s : State) : (memRead addr s).2.memMap = s.memMap := by
  unfold memRead; split <;> simp
@[simp] theorem memRead_params (addr : Addr) (s : State) : (memRead addr s).2.params = s.params := by
  unfold memRead; split <;> simp
@[simp] theorem memRead_intSource (addr : Addr) (s : State) : (memRead addr s).2.intSource = s.intSource := by
  unfold memRead; split <;> simp

@[simp] theorem memWrite_a (addr : Addr) (v : Byte) (s : State) : (memWrite addr v s).a = s.a := by
  unfold memWrite; split <;> rfl
@[simp] theorem memWrite_b (addr : Addr) (v : Byte) (s : State) : (memWrite addr v s).b = s.b := by
  unfold memWrite; split <;> rfl
@[simp] theorem memWrite_c (addr : Addr) (v : Byte) (s : State) : (memWrite addr v s).c = s.c := by
  unfold memWrite; split <;> rfl
@[simp] theorem memWrite_d (addr : Addr) (v : Byte) (s : State) : (memWrite addr v s).d = s.d := by
  unfold memWrite; split <;> rfl
@[simp] theorem memWrite_e (addr : Addr) (v : Byte) (s : State) : (memWrite addr v s).e = s.e := by
  unfold memWrite; split <;> rfl
@[simp] theorem memWrite_h (addr : Addr) (v : Byte) (s : State) : (memWrite addr v s).h = s.h := by
  unfold memWrite; split <;> rfl
@[simp] theorem memWrite_l (addr : Addr) (v : Byte) (s : State) : (memWrite addr v s).l = s.l := by
  unfold memWrite; split <;> rfl
@[simp] theorem memWrite_flags (addr : Addr) (v : Byte) (s : State) : (memWrite addr v s).flags = s.flags := by
  unfold memWrite; split <;> rfl
@[simp] theorem memWrite_sp (addr : Addr) (v : Byte) (s : State) : (memWrite addr v s).sp = s.sp := by
  unfold memWrite; split <;> rfl
@[simp] theorem memWrite_pc (addr : Addr) (v : Byte) (s : State) : (memWrite addr v s).pc = s.pc := by
  unfold memWrite; split <;> rfl
@[simp] theorem memWrite_inte (addr : Addr) (v : Byte) (s : State) : (memWrite addr v s).inte = s.inte := by
  unfold memWrite; split <;> rfl
@[simp] theorem memWrite_eiWait (addr : Addr) (v : Byte) (s : State) : (memWrite addr v s).eiWait = s.eiWait := by
  unfold memWrite; split <;> rfl
@[simp] theorem memWrite_halted (addr : Addr) (v : Byte) (s : State) : (memWrite addr v s).halted = s.halted := by
  unfold memWrite; split <;> rfl
@[simp] theorem memWrite_memMap (addr : Addr) (v : Byte) (s : State) : (memWrite addr v s).memMap = s.memMap := by
  unfold memWrite; split <;> rfl
@[simp] theorem memWrite_params (addr : Addr) (v : Byte) (s : State) : (memWrite addr v s).params = s.params := by
  unfold memWrite; split <;> rfl
@[simp] theorem memWrite_intSource (addr : Addr) (v : Byte) (s : State) : (memWrite addr v s).intSource = s.intSource := by
  unfold memWrite; split <;> rfl
@[simp] theorem memWrite_busAnswers (addr : Addr) (v : Byte) (s : State) : (memWrite addr v s).busAnswers = s.busAnswers := by
  unfold memWrite; split <;> rfl
@[simp] theorem memWrite_draws (addr : Addr) (v : Byte) (s : State) : (memWrite addr v s).draws = s.draws := by
  unfold memWrite; split <;> rfl

@[simp] theorem ioRead_a (port : Byte) (s : State) : (ioRead port s).2.a = s.a := by simp [ioRead]
@[simp] theorem ioRead_b (port : Byte) (s : State) : (ioRead port s).2.b = s.b := by simp [ioRead]
@[simp] theorem ioRead_c (port : Byte) (s : State) : (ioRead port s).2.c = s.c := by simp [ioRead]
@[simp] theorem ioRead_d (port : Byte) (s : State) : (ioRead port s).2.d = s.d := by simp [ioRead]
@[simp] theorem ioRead_e (port : Byte) (s : State) : (ioRead port s).2.e = s.e := by simp [ioRead]
@[simp] theorem ioRead_h (port : Byte) (s : State) : (ioRead port s).2.h = s.h := by simp [ioRead]
@[simp] theorem ioRead_l (port : Byte) (s : State) : (ioRead port s).2.l = s.l := by simp [ioRead]
@[simp] theorem ioRead_flags (port : Byte) (s : State) : (ioRead port s).2.flags = s.flags := by simp [ioRead]
@[simp] theorem ioRead_sp (port : Byte) (s : State) : (ioRead port s).2.sp = s.sp := by simp [ioRead]
@[simp] theorem ioRead_pc (port : Byte) (s : State) : (ioRead port s).2.pc = s.pc := by simp [ioRead]
@[simp] theorem ioRead_inte (port : Byte) (s : State) : (ioRead port s).2.inte = s.inte := by simp [ioRead]
@[simp] theorem ioRead_eiWait (port : Byte) (s : State) : (ioRead port s).2.eiWait = s.eiWait := by simp [ioRead]
@[simp] theorem ioRead_halted (port : Byte) (s : State) : (ioRead port s).2.halted = s.halted := by simp [ioRead]
@[simp] theorem ioRead_mem (port : Byte) (s : State) : (ioRead port s).2.mem = s.mem := by simp [ioRead]
@[simp] theorem ioRead_memMap (port : Byte) (s : State) : (ioRead port s).2.memMap = s.memMap := by simp [ioRead]
@[simp] theorem ioRead_params (port : Byte) (s : State) : (ioRead port s).2.params = s.params := by simp [ioRead]
@[simp] theorem ioRead_intSource (port : Byte) (s : State) : (ioRead port s).2.intSource = s.intSource := by simp [ioRead]

@[simp] theorem ioWrite_a (port v : Byte) (s : State) : (ioWrite port v s).a = s.a := rfl
@[simp] theorem ioWrite_b (port v : Byte) (s : State) : (ioWrite port v s).b = s.b := rfl
@[simp] theorem ioWrite_c (port v : Byte) (s : State) : (ioWrite port v s).c = s.c := rfl
@[simp] theorem ioWrite_d (port v : Byte) (s : State) : (ioWrite port v s).d = s.d := rfl
@[simp] theorem ioWrite_e (port v : Byte) (s : State) : (ioWrite port v s).e = s.e := rfl
@[simp] theorem ioWrite_h (port v : Byte) (s : State) : (ioWrite port v s).h = s.h := rfl
@[simp] theorem ioWrite_l (port v : Byte) (s : State) : (ioWrite port v s).l = s.l := rfl
@[simp] theorem ioWrite_flags (port v : Byte) (s : State) : (ioWrite port v s).flags = s.flags := rfl
@[simp] theorem ioWrite_sp (port v : Byte) (s : State) : (ioWrite port v s).sp = s.sp := rfl
@[simp] theorem ioWrite_pc (port v : Byte) (s : State) : (ioWrite port v s).pc = s.pc := rfl
@[simp] theorem ioWrite_inte (port v : Byte) (s : State) : (ioWrite port v s).inte = s.inte := rfl
@[simp] theorem ioWrite_eiWait (port v : Byte) (s : State) : (ioWrite port v s).eiWait = s.eiWait := rfl
@[simp] theorem ioWrite_halted (port v : Byte) (s : State) : (ioWrite port v s).halted = s.halted := rfl
@[simp] theorem ioWrite_mem (port v : Byte) (s : State) : (ioWrite port v s).mem = s.mem := rfl
@[simp] theorem ioWrite_memMap (port v : Byte) (s : State) : (ioWrite port v s).memMap = s.memMap := rfl
@[simp] theorem ioWrite_params (port v : Byte) (s : State) : (ioWrite port v s).params = s.params := rfl
@[simp] theorem ioWrite_intSource (port v : Byte) (s : State) : (ioWrite port v s).intSource = s.intSource := rfl
@[simp] theorem ioWrite_busAnswers (port v : Byte) (s : State) : (ioWrite port v s).busAnswers = s.busAnswers := rfl
@[simp] theorem ioWrite_draws (port v : Byte) (s : State) : (ioWrite port v s).draws = s.draws := rfl

@[simp] theorem readOperand_a (r : Operand8) (s : State) : (readOperand r s).2.a = s.a := by
  cases r <;> simp [readOperand]
@[simp] theorem readOperand_b (r : Operand8) (s : State) : (readOperand r s).2.b = s.b := by
  cases r <;> simp [readOperand]
@[simp] theorem readOperand_c (r : Operand8) (s : State) : (readOperand r s).2.c = s.c := by
  cases r <;> simp [readOperand]
@[simp] theorem readOperand_d (r : Operand8) (s : State) : (readOperand r s).2.d = s.d := by
  cases r <;> simp [readOperand]
@[simp] theorem readOperand_e (r : Operand8) (s : State) : (readOperand r s).2.e = s.e := by
  cases r <;> simp [readOperand]
@[simp] theorem readOperand_h (r : Operand8) (s : State) : (readOperand r s).2.h = s.h := by
  cases r <;> simp [readOperand]
@[simp] theorem readOperand_l (r : Operand8) (s : State) : (readOperand r s).2.l = s.l := by
  cases r <;> simp [readOperand]
@[simp] theorem readOperand_flags (r : Operand8) (s : State) : (readOperand r s).2.flags = s.flags := by
  cases r <;> simp [readOperand]
@[simp] theorem readOperand_sp (r : Operand8) (s : State) : (readOperand r s).2.sp = s.sp := by
  cases r <;> simp [readOperand]
@[simp] theorem readOperand_pc (r : Operand8) (s : State) : (readOperand r s).2.pc = s.pc := by
  cases r <;> simp [readOperand]
@[simp] theorem readOperand_inte (r : Operand8) (s : State) : (readOperand r s).2.inte = s.inte := by
  cases r <;> simp [readOperand]
@[simp] theorem readOperand_eiWait (r : Operand8) (s : State) : (readOperand r s).2.eiWait = s.eiWait := by
  cases r <;> simp [readOperand]
@[simp] theorem readOperand_halted (r : Operand8) (s : State) : (readOperand r s).2.halted = s.halted := by
  cases r <;> simp [readOperand]
@[simp] theorem readOperand_mem (r : Operand8) (s : State) : (readOperand r s).2.mem = s.mem := by
  cases r <;> simp [readOperand]
@[simp] theorem readOperand_memMap (r : Operand8) (s : State) : (readOperand r s).2.memMap = s.memMap := by
  cases r <;> simp [readOperand]
@[simp] theorem readOperand_params (r : Operand8) (s : State) : (readOperand r s).2.params = s.params := by
  cases r <;> simp [readOperand]
@[simp] theorem readOperand_intSource (r : Operand8) (s : State) : (readOperand r s).2.intSource = s.intSource := by
  cases r <;> simp [readOperand]

@[simp] theorem pop16_a (s : State) : (pop16 s).2.a = s.a := by simp [pop16]
@[simp] theorem pop16_b (s : State) : (pop16 s).2.b = s.b := by simp [pop16]
@[simp] theorem pop16_c (s : State) : (pop16 s).2.c = s.c := by simp [pop16]
@[simp] theorem pop16_d (s : State) : (pop16 s).2.d = s.d := by simp [pop16]
@[simp] theorem pop16_e (s : State) : (pop16 s).2.e = s.e := by simp [pop16]
@[simp] theorem pop16_h (s : State) : (pop16 s).2.h = s.h := by simp [pop16]
@[simp] theorem pop16_l (s : State) : (pop16 s).2.l = s.l := by simp [pop16]
@[simp] theorem pop16_flags (s : State) : (pop16 s).2.flags = s.flags := by simp [pop16]
@[simp] theorem pop16_sp (s : State) : (pop16 s).2.sp = s.sp + 2 := by simp [pop16]
@[simp] theorem pop16_pc (s : State) : (pop16 s).2.pc = s.pc := by simp [pop16]
@[simp] theorem pop16_inte (s : State) : (pop16 s).2.inte = s.inte := by simp [pop16]
@[simp] theorem pop16_eiWait (s : State) : (pop16 s).2.eiWait = s.eiWait := by simp [pop16]
@[simp] theorem pop16_halted (s : State) : (pop16 s).2.halted = s.halted := by simp [pop16]
@[simp] theorem pop16_mem (s : State) : (pop16 s).2.mem = s.mem := by simp [pop16]
@[simp] theorem pop16_memMap (s : State) : (pop16 s).2.memMap = s.memMap := by simp [pop16]
@[simp] theorem pop16_params (s : State) : (pop16 s).2.params = s.params := by simp [pop16]
@[simp] theorem pop16_intSource (s : State) : (pop16 s).2.intSource = s.intSource := by simp [pop16]

@[simp] theorem push16_a (v : Addr) (s : State) : (push16 v s).a = s.a := by simp [push16]
@[simp] theorem push16_b (v : Addr) (s : State) : (push16 v s).b = s.b := by simp [push16]
@[simp] theorem push16_c (v : Addr) (s : State) : (push16 v s).c = s.c := by simp [push16]
@[simp] theorem push16_d (v : Addr) (s : State) : (push16 v s).d = s.d := by simp [push16]
@[simp] theorem push16_e (v : Addr) (s : State) : (push16 v s).e = s.e := by simp [push16]
@[simp] theorem push16_h (v : Addr) (s : State) : (push16 v s).h = s.h := by simp [push16]
@[simp] theorem push16_l (v : Addr) (s : State) : (push16 v s).l = s.l := by simp [push16]
@[simp] theorem push16_flags (v : Addr) (s : State) : (push16 v s).flags = s.flags := by simp [push16]
@[simp] theorem push16_sp (v : Addr) (s : State) : (push16 v s).sp = s.sp - 2 := by simp [push16]
@[simp] theorem push16_pc (v : Addr) (s : State) : (push16 v s).pc = s.pc := by simp [push16]
@[simp] theorem push16_inte (v : Addr) (s : State) : (push16 v s).inte = s.inte := by simp [push16]
@[simp] theorem push16_eiWait (v : Addr) (s : State) : (push16 v s).eiWait = s.eiWait := by simp [push16]
@[simp] theorem push16_halted (v : Addr) (s : State) : (push16 v s).halted = s.halted := by simp [push16]
@[simp] theorem push16_memMap (v : Addr) (s : State) : (push16 v s).memMap = s.memMap := by simp [push16]
@[simp] theorem push16_params (v : Addr) (s : State) : (push16 v s).params = s.params := by simp [push16]
@[simp] theorem push16_intSource (v : Addr) (s : State) : (push16 v s).intSource = s.intSource := by simp [push16]
@[simp] theorem push16_busAnswers (v : Addr) (s : State) : (push16 v s).busAnswers = s.busAnswers := by simp [push16]
@[simp] theorem push16_draws (v : Addr) (s : State) : (push16 v s).draws = s.draws := by simp [push16]

@[simp] theorem fetch8_a (s : State) : (fetch8 s).2.a = s.a := by simp [fetch8]
@[simp] theorem fetch8_b (s : State) : (fetch8 s).2.b = s.b := by simp [fetch8]
@[simp] theorem fetch8_c (s : State) : (fetch8 s).2.c = s.c := by simp [fetch8]
@[simp] theorem fetch8_d (s : State) : (fetch8 s).2.d = s.d := by simp [fetch8]
@[simp] theorem fetch8_e (s : State) : (fetch8 s).2.e = s.e := by simp [fetch8]
@[simp] theorem fetch8_h (s : State) : (fetch8 s).2.h = s.h := by simp [fetch8]
@[simp] theorem fetch8_l (s : State) : (fetch8 s).2.l = s.l := by simp [fetch8]
@[simp] theorem fetch8_flags (s : State) : (fetch8 s).2.flags = s.flags := by simp [fetch8]
@[simp] theorem fetch8_sp (s : State) : (fetch8 s).2.sp = s.sp := by simp [fetch8]
@[simp] theorem fetch8_pc (s : State) : (fetch8 s).2.pc = s.pc + 1 := by simp [fetch8]
@[simp] theorem fetch8_inte (s : State) : (fetch8 s).2.inte = s.inte := by simp [fetch8]
@[simp] theorem fetch8_eiWait (s : State) : (fetch8 s).2.eiWait = s.eiWait := by simp [fetch8]
@[simp] theorem fetch8_halted (s : State) : (fetch8 s).2.halted = s.halted := by simp [fetch8]
@[simp] theorem fetch8_mem (s : State) : (fetch8 s).2.mem = s.mem := by simp [fetch8]
@[simp] theorem fetch8_memMap (s : State) : (fetch8 s).2.memMap = s.memMap := by simp [fetch8]
@[simp] theorem fetch8_params (s : State) : (fetch8 s).2.params = s.params := by simp [fetch8]
@[simp] theorem fetch8_intSource (s : State) : (fetch8 s).2.intSource = s.intSource := by simp [fetch8]

end Sys2Proof.Machine
end

