-- ==== Sys2Proof/Laws/Ops.lean ====
section
/-! SUPPORT. What each shared operation can do, said once: these are the lemmas to cite instead of unfolding it. -/

namespace Sys2Proof.Machine

open Sys2Proof.Config

/-! Accesses. -/

/-- A draw changes only what is left of the platform's bytes. -/
theorem draw_eq (s : State) :
    (draw s).2 = { s with busAnswers := (draw s).2.busAnswers, draws := (draw s).2.draws } := by
  unfold draw; split <;> rfl

theorem memRead_stored {addr : Addr} {s : State} (h : kindAt s.memMap addr = .ram ∨ kindAt s.memMap addr = .rom) :
    memRead addr s = (s.byteAt addr, s) := by
  rcases h with h | h <;> simp [memRead, h]

/-- A read changes at most the platform's side of the state. -/
theorem memRead_eq (addr : Addr) (s : State) :
    (memRead addr s).2 = { s with
      busAnswers := (memRead addr s).2.busAnswers, draws := (memRead addr s).2.draws,
      events := (memRead addr s).2.events } := by
  unfold memRead
  split
  · rfl
  · rfl
  · rw [draw_eq]
  · simp only [State.record, State.setEvents]; rw [draw_eq]

@[simp] theorem memRead_byteAt (addr other : Addr) (s : State) :
    (memRead addr s).2.byteAt other = s.byteAt other := by simp [State.byteAt]

/-- A write changes at most memory and the trace. -/
theorem memWrite_eq (addr : Addr) (v : Byte) (s : State) :
    memWrite addr v s = { s with mem := (memWrite addr v s).mem, events := (memWrite addr v s).events } := by
  unfold memWrite; split <;> rfl

theorem memWrite_ram {addr : Addr} {s : State} (v : Byte) (h : kindAt s.memMap addr = .ram) :
    memWrite addr v s = s.setMem (Memory.write s.mem addr.toNat v) := by simp [memWrite, h]

theorem memWrite_byteAt_other {addr other : Addr} (v : Byte) (s : State) (h : other ≠ addr) :
    (memWrite addr v s).byteAt other = s.byteAt other := by
  have hn : other.toNat ≠ addr.toNat := fun e => h (BitVec.eq_of_toNat_eq e)
  unfold memWrite
  split <;> simp [State.byteAt, hn]

theorem memWrite_byteAt_same {addr : Addr} {s : State} (v : Byte) (h : kindAt s.memMap addr = .ram) :
    (memWrite addr v s).byteAt addr = v := by simp [memWrite_ram v h, State.byteAt]

/-- Where nothing can be written, nothing changes. -/
theorem memWrite_byteAt_notRam {addr other : Addr} (v : Byte) (s : State) (h : kindAt s.memMap other ≠ .ram) :
    (memWrite addr v s).byteAt other = s.byteAt other := by
  by_cases e : other = addr
  · subst e
    unfold memWrite
    split <;> simp_all [State.byteAt]
  · exact memWrite_byteAt_other v s e

theorem memWrite_wf (addr : Addr) (v : Byte) (s : State) (h : Memory.wf s.mem = true) :
    Memory.wf (memWrite addr v s).mem = true := by
  unfold memWrite
  split <;> simp [h, Memory.write_wf, addr.isLt]

/-! The stack. -/

theorem push16_byteAt_other {other : Addr} (v : Addr) (s : State) (h1 : other ≠ s.sp - 1) (h2 : other ≠ s.sp - 2) :
    (push16 v s).byteAt other = s.byteAt other := by
  show (memWrite _ _ _).byteAt other = _
  rw [memWrite_byteAt_other _ _ h2, memWrite_byteAt_other _ _ h1]

/-- A push changes SP, and at most memory and the trace. -/
theorem push16_eq (v : Addr) (s : State) :
    push16 v s = { s with sp := s.sp - 2, mem := (push16 v s).mem, events := (push16 v s).events } := by
  unfold push16
  simp only [State.setSp]
  rw [memWrite_eq, memWrite_eq (s.sp - 1)]

theorem push16_high {s : State} (v : Addr) (h : kindAt s.memMap (s.sp - 1) = .ram) :
    (push16 v s).byteAt (s.sp - 1) = highByte v := by
  show (memWrite _ _ _).byteAt _ = _
  rw [memWrite_byteAt_other, memWrite_byteAt_same _ h]
  bv_omega

theorem push16_low {s : State} (v : Addr) (h : kindAt s.memMap (s.sp - 2) = .ram) :
    (push16 v s).byteAt (s.sp - 2) = lowByte v := by
  show (memWrite _ _ _).byteAt _ = _
  rw [memWrite_byteAt_same]
  simpa using h

theorem push16_wf (v : Addr) (s : State) (h : Memory.wf s.mem = true) : Memory.wf (push16 v s).mem = true :=
  memWrite_wf _ _ _ (memWrite_wf _ _ _ h)

/-- Over stored bytes a pop reads the word at SP, low byte first, and moves SP only. -/
theorem pop16_stored {s : State} (h1 : kindAt s.memMap s.sp = .ram ∨ kindAt s.memMap s.sp = .rom)
    (h2 : kindAt s.memMap (s.sp + 1) = .ram ∨ kindAt s.memMap (s.sp + 1) = .rom) :
    pop16 s = (joinBytes (s.byteAt (s.sp + 1)) (s.byteAt s.sp), s.setSp (s.sp + 2)) := by
  unfold pop16
  rw [memRead_stored h1]
  dsimp only
  rw [memRead_stored h2]

/-! Pairs. -/

@[simp] theorem State.setBc_bc (s : State) (v : Addr) : (s.setBc v).bc = v := by simp [State.setBc, State.bc]

@[simp] theorem State.setDe_de (s : State) (v : Addr) : (s.setDe v).de = v := by simp [State.setDe, State.de]

@[simp] theorem State.setHl_hl (s : State) (v : Addr) : (s.setHl v).hl = v := by simp [State.setHl, State.hl]

@[simp] theorem readPair_writePair (p : RegPair) (v : Addr) (s : State) : readPair p (writePair p v s) = v := by
  cases p <;> simp [readPair, writePair]

/-- The flag byte loaded back gives the flags. -/
@[simp] theorem flagsFromByte_flagByte (f : Flags) : flagsFromByte (flagByte f) = f := by
  obtain ⟨s, z, ac, p, cy⟩ := f
  cases s <;> cases z <;> cases ac <;> cases p <;> cases cy <;> rfl

/-! The interrupt: every field of the state after an acceptance but memory and the trace. -/

@[simp] theorem accept_a (n : BitVec 3) (s : State) : (accept n s).a = s.a := by simp [accept, callTo]
@[simp] theorem accept_b (n : BitVec 3) (s : State) : (accept n s).b = s.b := by simp [accept, callTo]
@[simp] theorem accept_c (n : BitVec 3) (s : State) : (accept n s).c = s.c := by simp [accept, callTo]
@[simp] theorem accept_d (n : BitVec 3) (s : State) : (accept n s).d = s.d := by simp [accept, callTo]
@[simp] theorem accept_e (n : BitVec 3) (s : State) : (accept n s).e = s.e := by simp [accept, callTo]
@[simp] theorem accept_h (n : BitVec 3) (s : State) : (accept n s).h = s.h := by simp [accept, callTo]
@[simp] theorem accept_l (n : BitVec 3) (s : State) : (accept n s).l = s.l := by simp [accept, callTo]
@[simp] theorem accept_flags (n : BitVec 3) (s : State) : (accept n s).flags = s.flags := by simp [accept, callTo]
@[simp] theorem accept_memMap (n : BitVec 3) (s : State) : (accept n s).memMap = s.memMap := by simp [accept, callTo]
@[simp] theorem accept_params (n : BitVec 3) (s : State) : (accept n s).params = s.params := by simp [accept, callTo]
@[simp] theorem accept_intSource (n : BitVec 3) (s : State) : (accept n s).intSource = s.intSource := by simp [accept, callTo]
@[simp] theorem accept_busAnswers (n : BitVec 3) (s : State) : (accept n s).busAnswers = s.busAnswers := by simp [accept, callTo]
@[simp] theorem accept_draws (n : BitVec 3) (s : State) : (accept n s).draws = s.draws := by simp [accept, callTo]
@[simp] theorem accept_inte (n : BitVec 3) (s : State) : (accept n s).inte = false := by simp [accept, callTo]
@[simp] theorem accept_eiWait (n : BitVec 3) (s : State) : (accept n s).eiWait = 0 := by simp [accept, callTo]
@[simp] theorem accept_halted (n : BitVec 3) (s : State) : (accept n s).halted = false := by simp [accept, callTo]
@[simp] theorem accept_sp (n : BitVec 3) (s : State) : (accept n s).sp = s.sp - 2 := rfl
@[simp] theorem accept_pc (n : BitVec 3) (s : State) : (accept n s).pc = restartAddr n := rfl

/-- What the acceptance check can answer when it answers a next state (R243). -/
theorem interruptCheck_cases {s t : State} (h : interruptCheck s = .next t) :
    (0 < s.eiWait ∧ t = (askIntSource s).2.setEiWait (s.eiWait - 1)) ∨
    (s.eiWait = 0 ∧ (s.inte = false ∨ (askIntSource s).1 = none) ∧ t = (askIntSource s).2) ∨
    (s.eiWait = 0 ∧ s.inte = true ∧ ∃ op n, (askIntSource s).1 = some op ∧ rstNumber op = some n ∧
      t = accept n (askIntSource s).2) := by
  unfold interruptCheck at h
  dsimp only at h
  split at h
  · exact .inl ⟨‹_›, by simpa using h.symm⟩
  · rename_i h0
    have h0 : s.eiWait = 0 := by omega
    split at h
    · rename_i hi
      cases ha : (askIntSource s).1 with
      | none =>
        rw [ha] at h
        exact .inr (.inl ⟨h0, .inr rfl, by simpa using h.symm⟩)
      | some op =>
        rw [ha] at h
        cases hn : rstNumber op with
        | none => simp [hn] at h
        | some n =>
          simp only [hn] at h
          exact .inr (.inr ⟨h0, hi, op, n, rfl, hn, by simpa using h.symm⟩)
    · rename_i hi
      exact .inr (.inl ⟨h0, .inl (by simpa using hi), by simpa using h.symm⟩)

/-- The acceptance check never faults, and refuses only an opcode that is not RST n (R245). -/
theorem interruptCheck_stops (s : State) :
    (∃ t, interruptCheck s = .next t) ∨
    ∃ op, interruptCheck s = .refused (.interruptOpcodeNotRst op) ∧ rstNumber op = none := by
  unfold interruptCheck
  dsimp only
  split
  · exact .inl ⟨_, rfl⟩
  · split
    · split
      · exact .inl ⟨_, rfl⟩
      · split
        · exact .inl ⟨_, rfl⟩
        · exact .inr ⟨_, rfl, ‹_›⟩
    · exact .inl ⟨_, rfl⟩

/-- Asking the interrupt source uses up one answer and changes nothing else. -/
theorem askIntSource_eq (s : State) : (askIntSource s).2 = s.setIntSource (askSource s.intSource).2 := rfl

@[simp] theorem askIntSource_fst (s : State) : (askIntSource s).1 = (askSource s.intSource).1 := rfl

/-! The interrupt source. -/

theorem askSource_listed (answer : Option Byte) (rest : List (Option Byte)) (after : IntAfter) (drawn : Nat) :
    askSource { listed := answer :: rest, after := after, drawn := drawn } =
      (answer, { listed := rest, after := after, drawn := drawn }) := rfl

theorem askSource_never (drawn : Nat) :
    askSource { listed := [], after := .never, drawn := drawn } =
      (none, { listed := [], after := .never, drawn := drawn }) := rfl

theorem askSource_again (first : Option Byte) (rest : List (Option Byte)) (drawn : Nat) :
    askSource { listed := [], after := .again first rest, drawn := drawn } =
      (first, { listed := rest, after := .again first rest, drawn := drawn }) := rfl

theorem askSource_free (drawn : Nat) :
    askSource { listed := [], after := .free, drawn := drawn } =
      ((Config.freeRequest drawn).map rstOpcode, { listed := [], after := .free, drawn := drawn + 1 }) := rfl

@[simp] theorem askSource_after (src : IntSource) : (askSource src).2.after = src.after := by
  unfold askSource
  split
  · rfl
  · split <;> simp_all

@[simp] theorem sourceAfter_zero (src : IntSource) : sourceAfter 0 src = src := rfl

theorem sourceAfter_succ (k : Nat) (src : IntSource) : sourceAfter (k + 1) src = sourceAfter k (askSource src).2 := rfl

theorem answerAt_zero (src : IntSource) : answerAt 0 src = (askSource src).1 := rfl

theorem answerAt_succ (k : Nat) (src : IntSource) : answerAt (k + 1) src = answerAt k (askSource src).2 := rfl

/-- A silent source answers no request and stays silent. -/
theorem askSource_silent {src : IntSource} (h : isSilent src = true) :
    (askSource src).1 = none ∧ isSilent (askSource src).2 = true := by
  obtain ⟨listed, after, drawn⟩ := src
  rcases listed with _ | ⟨answer, rest⟩ <;> rcases after with _ | ⟨first, again⟩ | _ <;>
    simp [isSilent, askSource] at h ⊢ <;> tauto

/-- A silent source never requests. -/
theorem answerAt_silent (k : Nat) {src : IntSource} (h : isSilent src = true) : answerAt k src = none := by
  induction k generalizing src with
  | zero => exact (askSource_silent h).1
  | succ k ih => exact ih (askSource_silent h).2

@[simp] theorem rstNumber_rstOpcode (n : BitVec 3) : rstNumber (rstOpcode n) = some n := by simp [rstNumber, rstOpcode]

/-- Only the opcode of RST n has the number n. -/
theorem rstNumber_eq_some {op : Byte} {n : BitVec 3} (h : rstNumber op = some n) : op = rstOpcode n := by
  unfold rstNumber at h
  split at h
  · rename_i hf
    simp only [Option.some.injEq] at h
    rw [rstOpcode, ← h, ← hf.1, ← hf.2, opcodeOf_fields]
  · cases h

/-! Fetch and step. -/

/-- A fetch changes PC and the platform's side only; PC moves past the instruction (R15, R64). -/
theorem fetchInstr_ok {s s1 : State} {i : Instr} (h : fetchInstr s = .ok (i, s1)) :
    ∃ n b d ev, s1 = { s with pc := s.pc + n, busAnswers := b, draws := d, events := ev } := by
  have h8 : ∀ u : State, ∃ b d ev, (fetch8 u).2 = { u with pc := u.pc + 1, busAnswers := b, draws := d, events := ev } :=
    fun u => ⟨(memRead u.pc u).2.busAnswers, (memRead u.pc u).2.draws, (memRead u.pc u).2.events, by
      unfold fetch8
      dsimp only [State.setPc]
      rw [memRead_eq]⟩
  unfold fetchInstr at h
  dsimp only at h
  obtain ⟨b, d, ev, e1⟩ := h8 s
  split at h
  · cases h
  · simp only [Except.ok.injEq, Prod.mk.injEq] at h
    exact ⟨1, b, d, ev, by rw [← h.2, e1]⟩
  · simp only [Except.ok.injEq, Prod.mk.injEq] at h
    obtain ⟨b', d', ev', e2⟩ := h8 (fetch8 s).2
    exact ⟨2, b', d', ev', by rw [← h.2, e2, e1]; simp [BitVec.add_assoc]⟩
  · simp only [Except.ok.injEq, Prod.mk.injEq] at h
    obtain ⟨b', d', ev', e2⟩ := h8 (fetch8 s).2
    obtain ⟨b'', d'', ev'', e3⟩ := h8 (fetch8 (fetch8 s).2).2
    exact ⟨3, b'', d'', ev'', by rw [← h.2]; simp only [fetch16]; rw [e3, e2, e1]; simp [BitVec.add_assoc]⟩

/-- What a step can do when it answers a next state (R243). -/
theorem step_cases {s t : State} (h : step s = .next t) :
    (s.halted = true ∧ interruptCheck s = .next t) ∨
    (s.halted = false ∧ ∃ i s1 s2, fetchInstr s = .ok (i, s1) ∧ exec i s1 = .next s2 ∧ interruptCheck s2 = .next t) := by
  unfold step at h
  split at h
  · exact .inl ⟨‹_›, h⟩
  · rename_i hh
    split at h
    · cases h
    · rename_i i s1 hf
      split at h
      · exact .inr ⟨by simpa using hh, i, s1, _, hf, ‹_›, h⟩
      · cases h
      · cases h

end Sys2Proof.Machine
end

