-- ==== Sys2Proof/Laws/PerInstr.lean ====
section
/-! SUPPORT. Facts about every instruction as syntax, one lemma per constructor. -/

namespace Sys2Proof.Laws

/-- The opcode alone decides the length (R60, R63): an instruction's encoding is as long as its first byte says. -/
def EncodeLength.Statement (i : Instr) : Prop :=
  ((encode i).head?.map fun op => (decodeOpcode op).length) = some (encode i).length

theorem EncodeLength.mov (dst : Operand8) (src : Operand8) : EncodeLength.Statement (.mov dst src) := by cases dst <;> cases src <;> rfl
theorem EncodeLength.mvi (dst : Operand8) (imm : Byte) : EncodeLength.Statement (.mvi dst imm) := by cases dst <;> rfl
theorem EncodeLength.lxi (rp : RegPair) (imm : Addr) : EncodeLength.Statement (.lxi rp imm) := by cases rp <;> rfl
theorem EncodeLength.lda (addr : Addr) : EncodeLength.Statement (.lda addr) := rfl
theorem EncodeLength.sta (addr : Addr) : EncodeLength.Statement (.sta addr) := rfl
theorem EncodeLength.lhld (addr : Addr) : EncodeLength.Statement (.lhld addr) := rfl
theorem EncodeLength.shld (addr : Addr) : EncodeLength.Statement (.shld addr) := rfl
theorem EncodeLength.ldax (rp : IndexPair) : EncodeLength.Statement (.ldax rp) := by cases rp <;> rfl
theorem EncodeLength.stax (rp : IndexPair) : EncodeLength.Statement (.stax rp) := by cases rp <;> rfl
theorem EncodeLength.xchg : EncodeLength.Statement (.xchg) := rfl
theorem EncodeLength.add (src : Operand8) : EncodeLength.Statement (.add src) := by cases src <;> rfl
theorem EncodeLength.adi (imm : Byte) : EncodeLength.Statement (.adi imm) := rfl
theorem EncodeLength.adc (src : Operand8) : EncodeLength.Statement (.adc src) := by cases src <;> rfl
theorem EncodeLength.aci (imm : Byte) : EncodeLength.Statement (.aci imm) := rfl
theorem EncodeLength.sub (src : Operand8) : EncodeLength.Statement (.sub src) := by cases src <;> rfl
theorem EncodeLength.sui (imm : Byte) : EncodeLength.Statement (.sui imm) := rfl
theorem EncodeLength.sbb (src : Operand8) : EncodeLength.Statement (.sbb src) := by cases src <;> rfl
theorem EncodeLength.sbi (imm : Byte) : EncodeLength.Statement (.sbi imm) := rfl
theorem EncodeLength.inr (dst : Operand8) : EncodeLength.Statement (.inr dst) := by cases dst <;> rfl
theorem EncodeLength.dcr (dst : Operand8) : EncodeLength.Statement (.dcr dst) := by cases dst <;> rfl
theorem EncodeLength.inx (rp : RegPair) : EncodeLength.Statement (.inx rp) := by cases rp <;> rfl
theorem EncodeLength.dcx (rp : RegPair) : EncodeLength.Statement (.dcx rp) := by cases rp <;> rfl
theorem EncodeLength.dad (rp : RegPair) : EncodeLength.Statement (.dad rp) := by cases rp <;> rfl
theorem EncodeLength.daa : EncodeLength.Statement (.daa) := rfl
theorem EncodeLength.ana (src : Operand8) : EncodeLength.Statement (.ana src) := by cases src <;> rfl
theorem EncodeLength.ani (imm : Byte) : EncodeLength.Statement (.ani imm) := rfl
theorem EncodeLength.xra (src : Operand8) : EncodeLength.Statement (.xra src) := by cases src <;> rfl
theorem EncodeLength.xri (imm : Byte) : EncodeLength.Statement (.xri imm) := rfl
theorem EncodeLength.ora (src : Operand8) : EncodeLength.Statement (.ora src) := by cases src <;> rfl
theorem EncodeLength.ori (imm : Byte) : EncodeLength.Statement (.ori imm) := rfl
theorem EncodeLength.cmp (src : Operand8) : EncodeLength.Statement (.cmp src) := by cases src <;> rfl
theorem EncodeLength.cpi (imm : Byte) : EncodeLength.Statement (.cpi imm) := rfl
theorem EncodeLength.rlc : EncodeLength.Statement (.rlc) := rfl
theorem EncodeLength.rrc : EncodeLength.Statement (.rrc) := rfl
theorem EncodeLength.ral : EncodeLength.Statement (.ral) := rfl
theorem EncodeLength.rar : EncodeLength.Statement (.rar) := rfl
theorem EncodeLength.cma : EncodeLength.Statement (.cma) := rfl
theorem EncodeLength.cmc : EncodeLength.Statement (.cmc) := rfl
theorem EncodeLength.stc : EncodeLength.Statement (.stc) := rfl
theorem EncodeLength.jmp (addr : Addr) : EncodeLength.Statement (.jmp addr) := rfl
theorem EncodeLength.jnz (addr : Addr) : EncodeLength.Statement (.jnz addr) := rfl
theorem EncodeLength.jz (addr : Addr) : EncodeLength.Statement (.jz addr) := rfl
theorem EncodeLength.jnc (addr : Addr) : EncodeLength.Statement (.jnc addr) := rfl
theorem EncodeLength.jc (addr : Addr) : EncodeLength.Statement (.jc addr) := rfl
theorem EncodeLength.jpo (addr : Addr) : EncodeLength.Statement (.jpo addr) := rfl
theorem EncodeLength.jpe (addr : Addr) : EncodeLength.Statement (.jpe addr) := rfl
theorem EncodeLength.jp (addr : Addr) : EncodeLength.Statement (.jp addr) := rfl
theorem EncodeLength.jm (addr : Addr) : EncodeLength.Statement (.jm addr) := rfl
theorem EncodeLength.call (addr : Addr) : EncodeLength.Statement (.call addr) := rfl
theorem EncodeLength.cnz (addr : Addr) : EncodeLength.Statement (.cnz addr) := rfl
theorem EncodeLength.cz (addr : Addr) : EncodeLength.Statement (.cz addr) := rfl
theorem EncodeLength.cnc (addr : Addr) : EncodeLength.Statement (.cnc addr) := rfl
theorem EncodeLength.cc (addr : Addr) : EncodeLength.Statement (.cc addr) := rfl
theorem EncodeLength.cpo (addr : Addr) : EncodeLength.Statement (.cpo addr) := rfl
theorem EncodeLength.cpe (addr : Addr) : EncodeLength.Statement (.cpe addr) := rfl
theorem EncodeLength.cp (addr : Addr) : EncodeLength.Statement (.cp addr) := rfl
theorem EncodeLength.cm (addr : Addr) : EncodeLength.Statement (.cm addr) := rfl
theorem EncodeLength.ret : EncodeLength.Statement (.ret) := rfl
theorem EncodeLength.rnz : EncodeLength.Statement (.rnz) := rfl
theorem EncodeLength.rz : EncodeLength.Statement (.rz) := rfl
theorem EncodeLength.rnc : EncodeLength.Statement (.rnc) := rfl
theorem EncodeLength.rc : EncodeLength.Statement (.rc) := rfl
theorem EncodeLength.rpo : EncodeLength.Statement (.rpo) := rfl
theorem EncodeLength.rpe : EncodeLength.Statement (.rpe) := rfl
theorem EncodeLength.rp : EncodeLength.Statement (.rp) := rfl
theorem EncodeLength.rm : EncodeLength.Statement (.rm) := rfl
theorem EncodeLength.rst (n : BitVec 3) : EncodeLength.Statement (.rst n) := by revert n; unfold EncodeLength.Statement; decide
theorem EncodeLength.pchl : EncodeLength.Statement (.pchl) := rfl
theorem EncodeLength.push (rp : StackPair) : EncodeLength.Statement (.push rp) := by cases rp <;> rfl
theorem EncodeLength.pop (rp : StackPair) : EncodeLength.Statement (.pop rp) := by cases rp <;> rfl
theorem EncodeLength.xthl : EncodeLength.Statement (.xthl) := rfl
theorem EncodeLength.sphl : EncodeLength.Statement (.sphl) := rfl
theorem EncodeLength.inPort (port : Byte) : EncodeLength.Statement (.inPort port) := rfl
theorem EncodeLength.outPort (port : Byte) : EncodeLength.Statement (.outPort port) := rfl
theorem EncodeLength.ei : EncodeLength.Statement (.ei) := rfl
theorem EncodeLength.di : EncodeLength.Statement (.di) := rfl
theorem EncodeLength.hlt : EncodeLength.Statement (.hlt) := rfl
theorem EncodeLength.nop : EncodeLength.Statement (.nop) := rfl

end Sys2Proof.Laws
end

