-- ==== Sys2Proof/Tests/Slice0.lean ====
section
/-! SUPPORT. The model's own tests: which terms and words are instructions, one step on the spec's worked examples (the
rule that gives the example is named beside each), and for each obligation with hypotheses a state that meets them. -/

namespace Sys2Proof.Tests

open Sys2Proof.Machine Sys2Proof.Config Sys2Proof.Spec

/-! Helpers. -/

/-- Flags from five digits, in the order S, Z, AC, P, CY. -/
def fl (s z ac p cy : Nat) : Flags := ⟨s == 1, z == 1, ac == 1, p == 1, cy == 1⟩

/-- Bytes stored from an address on. -/
def stored (addr : Addr) (bytes : List Byte) (s : State) : State := placeBytes s addr bytes

/-- PC = 0100h, SP = 8000h and an instruction at PC. -/
def code (bytes : List Byte) : State := stored 0x0100 bytes { State.reset with pc := 0x0100, sp := 0x8000 }

/-- Something seen in the state after one step. -/
def look {α : Type} (f : State → α) (s : State) : Option α := (nextState (step s)).map f

/-- The bytes decode to the instruction, with nothing left. -/
def decodesTo (p : List Byte × Instr) : Bool :=
  match decode p.1 with
  | .ok (i, []) => decide (i = p.2)
  | _ => false

/-- An interrupt source with listed answers and none after them. -/
def source (answers : List (Option Byte)) : IntSource := { listed := answers, after := .never, drawn := 0 }

/-- A map of one region. -/
def mapOf (base size : Nat) (kind : MemKind) : List Region := [{ base := base, size := size, kind := kind }]

/-- The other admissible value of each two-valued parameter. -/
def otherParams : Params := { auxSub := .borrow, auxAna := .zero, daa := .standard, eiDelay := .zero }

/-! Well-formedness: the one check, refused and passed (R80). -/

theorem test_mov_m_m_ill_formed : (Instr.mov .m .m).wellFormed = false := by decide

theorem test_mov_m_a_well_formed : (Instr.mov .m .a).wellFormed = true ∧ (Instr.mov .a .m).wellFormed = true := by
  decide

/-! Decoding: a word for every constructor, written out from the encoding its rule gives (R80 to R231). -/

theorem test_decode_data_transfer :
    [([0b01100111], Instr.mov .h .a), ([0b01110000], .mov .m .b), ([0b01111110], .mov .a .m), ([0b01000001], .mov .b .c),
     ([0b00001110, 0xA6], .mvi .c 0xA6), ([0b00110110, 0x5A], .mvi .m 0x5A),
     ([0b00010001, 0xCD, 0xAB], .lxi .de 0xABCD), ([0b00110001, 0x00, 0xF0], .lxi .sp 0xF000),
     ([0b00111010, 0x56, 0x34], .lda 0x3456), ([0b00110010, 0xBE, 0x29], .sta 0x29BE),
     ([0b00101010, 0x68, 0x24], .lhld 0x2468), ([0b00100010, 0x79, 0x35], .shld 0x3579),
     ([0b00001010], .ldax .bc), ([0b00011010], .ldax .de), ([0b00000010], .stax .bc), ([0b00010010], .stax .de),
     ([0b11101011], .xchg)].all decodesTo = true := by decide

theorem test_decode_arithmetic :
    [([0b10000000], Instr.add .b), ([0b11000110, 0xF3], .adi 0xF3), ([0b10001110], .adc .m),
     ([0b11001110, 0x42], .aci 0x42), ([0b10010010], .sub .d), ([0b11010110, 0xD2], .sui 0xD2),
     ([0b10011100], .sbb .h), ([0b11011110, 0x79], .sbi 0x79), ([0b00110100], .inr .m), ([0b00101101], .dcr .l),
     ([0b00000011], .inx .bc), ([0b00111011], .dcx .sp), ([0b00011001], .dad .de), ([0b00111001], .dad .sp),
     ([0b00100111], .daa)].all decodesTo = true := by decide

theorem test_decode_logical :
    [([0b10100010], Instr.ana .d), ([0b11100110, 0x9B], .ani 0x9B), ([0b10101101], .xra .l),
     ([0b11101110, 0xD5], .xri 0xD5), ([0b10110100], .ora .h), ([0b11110110, 0xF2], .ori 0xF2),
     ([0b10111010], .cmp .d), ([0b11111110, 0xD9], .cpi 0xD9), ([0b00000111], .rlc), ([0b00001111], .rrc),
     ([0b00010111], .ral), ([0b00011111], .rar), ([0b00101111], .cma), ([0b00111111], .cmc),
     ([0b00110111], .stc)].all decodesTo = true := by decide

theorem test_decode_jumps :
    [([0b11000011, 0x7D, 0x6B], Instr.jmp 0x6B7D), ([0b11000010, 0xC5, 0x9F], .jnz 0x9FC5),
     ([0b11001010, 1, 2], .jz 0x0201), ([0b11010010, 1, 2], .jnc 0x0201), ([0b11011010, 1, 2], .jc 0x0201),
     ([0b11100010, 1, 2], .jpo 0x0201), ([0b11101010, 1, 2], .jpe 0x0201), ([0b11110010, 1, 2], .jp 0x0201),
     ([0b11111010, 1, 2], .jm 0x0201), ([0b11101001], .pchl)].all decodesTo = true := by decide

theorem test_decode_calls_and_returns :
    [([0b11001101, 0xD2, 0xB7], Instr.call 0xB7D2), ([0b11000100, 1, 2], .cnz 0x0201), ([0b11001100, 1, 2], .cz 0x0201),
     ([0b11010100, 1, 2], .cnc 0x0201), ([0b11011100, 0xF6, 0xDE], .cc 0xDEF6), ([0b11100100, 1, 2], .cpo 0x0201),
     ([0b11101100, 1, 2], .cpe 0x0201), ([0b11110100, 1, 2], .cp 0x0201), ([0b11111100, 1, 2], .cm 0x0201),
     ([0b11001001], .ret), ([0b11000000], .rnz), ([0b11001000], .rz), ([0b11010000], .rnc), ([0b11011000], .rc),
     ([0b11100000], .rpo), ([0b11101000], .rpe), ([0b11110000], .rp), ([0b11111000], .rm),
     ([0b11110111], .rst 6)].all decodesTo = true := by decide

theorem test_decode_stack_io_control :
    [([0b11010101], Instr.push .de), ([0b11110101], .push .psw), ([0b11100001], .pop .hl), ([0b11110001], .pop .psw),
     ([0b11100011], .xthl), ([0b11111001], .sphl), ([0b11011011, 0x2A], .inPort 0x2A),
     ([0b11010011, 0xC7], .outPort 0xC7), ([0b11111011], .ei), ([0b11110011], .di), ([0b01110110], .hlt),
     ([0b00000000], .nop)].all decodesTo = true := by decide

/-- The encoder writes the same words (R69). -/
theorem test_encode :
    encode (.mov .h .a) = [0x67] ∧ encode (.lxi .de 0xABCD) = [0x11, 0xCD, 0xAB] ∧ encode (.dcx .sp) = [0x3B] ∧
    encode (.jnz 0x9FC5) = [0xC2, 0xC5, 0x9F] ∧ encode (.rst 6) = [0xF7] ∧ encode (.push .psw) = [0xF5] := by decide

theorem test_decode_table_word :
    decodeTableWord 24 0xABCD11 = some (.lxi .de 0xABCD) ∧ decodeTableWord 8 0x08 = none := by decide

/-! Data transfer. -/

-- R80
theorem test_mov_register : look (fun t => (t.h, t.a, t.pc)) { code [0x67] with a := 0x5C } = some (0x5C, 0x5C, 0x0101) := by
  decide

-- R80, corner case: MOV H,M forms the address before it writes H
theorem test_mov_from_memory : look (fun t => (t.h, t.l))
    (stored 0x2040 [0x77] { code [0x66] with h := 0x20, l := 0x40 }) = some (0x77, 0x40) := by decide

-- R81
theorem test_mvi_memory : look (fun t => (t.byteAt 0x3000, t.pc)) { code [0x36, 0x5A] with h := 0x30 } =
    some (0x5A, 0x0102) := by decide

-- R82
theorem test_lxi : look (fun t => (t.d, t.e)) (code [0x11, 0xCD, 0xAB]) = some (0xAB, 0xCD) := by decide

-- R83
theorem test_lda : look (·.a) (stored 0x3456 [0x9D] (code [0x3A, 0x56, 0x34])) = some 0x9D := by decide

-- R84
theorem test_sta : look (fun t => t.byteAt 0x29BE) { code [0x32, 0xBE, 0x29] with a := 0x77 } = some 0x77 := by decide

-- R85, and its corner case addr = FFFFh (D2)
theorem test_lhld : look (fun t => (t.h, t.l)) (stored 0x2468 [0x34, 0x12] (code [0x2A, 0x68, 0x24])) = some (0x12, 0x34) := by
  decide

theorem test_lhld_wraps : look (fun t => (t.h, t.l)) (stored 0xFFFF [0x21, 0x43] (code [0x2A, 0xFF, 0xFF])) =
    some (0x43, 0x21) := by decide

-- R86
theorem test_shld : look (fun t => (t.byteAt 0x3579, t.byteAt 0x357A))
    { code [0x22, 0x79, 0x35] with h := 0xAB, l := 0xCD } = some (0xCD, 0xAB) := by decide

-- R87
theorem test_ldax : look (·.a) (stored 0x2010 [0x3F] { code [0x0A] with b := 0x20, c := 0x10 }) = some 0x3F := by decide

-- R88
theorem test_stax : look (fun t => t.byteAt 0x4000) { code [0x12] with d := 0x40, a := 0xE1 } = some 0xE1 := by decide

-- R89
theorem test_xchg : look (fun t => (t.hl, t.de)) { code [0xEB] with h := 0x12, l := 0x34, d := 0xAB, e := 0xCD } =
    some (0xABCD, 0x1234) := by decide

/-! Arithmetic. -/

-- R103
theorem test_add : look (fun t => (t.a, t.flags)) { code [0x80] with a := 0x6C, b := 0x2E } =
    some (0x9A, fl 1 0 1 1 0) := by decide

theorem test_add_a : look (fun t => (t.a, t.flags)) { code [0x87] with a := 0x80 } = some (0x00, fl 0 1 0 1 1) := by decide

-- R104
theorem test_adi : look (fun t => (t.a, t.flags)) { code [0xC6, 0xF3] with a := 0x14 } = some (0x07, fl 0 0 0 0 1) := by
  decide

-- R105
theorem test_adc : look (fun t => (t.a, t.flags)) { code [0x88] with a := 0x3D, b := 0x42, flags := fl 0 0 0 0 1 } =
    some (0x80, fl 1 0 1 0 0) := by decide

-- R106
theorem test_aci : look (fun t => (t.a, t.flags)) { code [0xCE, 0x00] with a := 0xFF, flags := fl 0 0 0 0 1 } =
    some (0x00, fl 0 1 1 1 1) := by decide

-- R107, under both values of AuxSub
theorem test_sub : look (fun t => (t.a, t.flags)) { code [0x90] with b := 0x01 } = some (0xFF, fl 1 0 0 1 1) := by decide

theorem test_sub_borrow : look (fun t => (t.a, t.flags)) { code [0x90] with b := 0x01, params := otherParams } =
    some (0xFF, fl 1 0 1 1 1) := by decide

-- R108
theorem test_sui : look (fun t => (t.a, t.flags)) { code [0xD6, 0xD2] with a := 0x10 } = some (0x3E, fl 0 0 0 0 1) := by
  decide

-- R109
theorem test_sbb : look (fun t => (t.a, t.flags)) { code [0x9C] with a := 0x04, h := 0x02, flags := fl 0 0 0 0 1 } =
    some (0x01, fl 0 0 1 0 0) := by decide

-- R110
theorem test_sbi : look (fun t => (t.a, t.flags)) { code [0xDE, 0x79] with a := 0x80, flags := fl 0 0 0 0 1 } =
    some (0x06, fl 0 0 0 1 0) := by decide

-- R111
theorem test_inr : look (fun t => (t.b, t.flags)) { code [0x04] with b := 0x0F, flags := fl 0 0 0 0 1 } =
    some (0x10, fl 0 0 1 0 1) := by decide

theorem test_inr_memory : look (fun t => (t.byteAt 0x0200, t.flags)) (stored 0x0200 [0x99] { code [0x34] with h := 0x02 }) =
    some (0x9A, fl 1 0 0 1 0) := by decide

-- R112
theorem test_dcr : look (fun t => (t.l, t.flags)) { code [0x2D] with l := 0x10, flags := fl 0 0 0 0 1 } =
    some (0x0F, fl 0 0 0 1 1) := by decide

-- R113, and the wrap of D1
theorem test_inx : look (fun t => (t.b, t.c)) { code [0x03] with b := 0x12, c := 0xFF } = some (0x13, 0x00) := by decide

theorem test_inx_wraps : look (fun t => (t.sp, t.flags)) { code [0x33] with sp := 0xFFFF } = some (0, fl 0 0 0 0 0) := by
  decide

-- R114
theorem test_dcx : look (fun t => (t.d, t.e)) { code [0x1B] with d := 0x10 } = some (0x0F, 0xFF) := by decide

-- R115
theorem test_dad : look (fun t => (t.hl, t.flags)) { code [0x09] with h := 0xA1, l := 0x7B, b := 0x33, c := 0x9F } =
    some (0xD51A, fl 0 0 0 0 0) := by decide

theorem test_dad_sp : look (fun t => (t.hl, t.flags.cy)) { code [0x39] with h := 0xFF, l := 0xFF, sp := 0x0001 } =
    some (0x0000, true) := by decide

-- R116
theorem test_daa : look (fun t => (t.a, t.flags)) { code [0x27] with a := 0x9B } = some (0x01, fl 0 0 1 0 1) := by decide

theorem test_daa_after_carry : look (fun t => (t.a, t.flags)) { code [0x27] with a := 0xB1, flags := fl 1 0 1 1 0 } =
    some (0x17, fl 0 0 0 1 1) := by decide

/-! Logical. -/

-- R131, under both values of AuxAna
theorem test_ana : look (fun t => (t.a, t.flags)) { code [0xA2] with a := 0xFC, d := 0x0F, flags := fl 0 0 0 0 1 } =
    some (0x0C, fl 0 0 1 1 0) := by decide

theorem test_ana_zero : look (·.flags) { code [0xA2] with a := 0xFC, d := 0x0F, params := otherParams } =
    some (fl 0 0 0 1 0) := by decide

-- R132
theorem test_ani : look (fun t => (t.a, t.flags)) { code [0xE6, 0x9B] with a := 0x3A, flags := fl 0 0 1 0 1 } =
    some (0x1A, fl 0 0 0 0 0) := by decide

-- R133
theorem test_xra : look (fun t => (t.a, t.flags)) { code [0xAD] with a := 0x5C, l := 0x78, flags := fl 0 0 0 0 1 } =
    some (0x24, fl 0 0 0 1 0) := by decide

-- R134
theorem test_xri : look (fun t => (t.a, t.flags)) { code [0xEE, 0xD5] with a := 0x3B, flags := fl 0 0 0 0 1 } =
    some (0xEE, fl 1 0 0 1 0) := by decide

-- R135
theorem test_ora : look (fun t => (t.a, t.flags)) { code [0xB4] with a := 0x33, h := 0x0F, flags := fl 0 0 0 0 1 } =
    some (0x3F, fl 0 0 0 1 0) := by decide

-- R136
theorem test_ori : look (fun t => (t.a, t.flags)) { code [0xF6, 0xF2] with a := 0x0D, flags := fl 0 0 0 0 1 } =
    some (0xFF, fl 1 0 0 1 0) := by decide

-- R137
theorem test_cmp : look (fun t => (t.a, t.flags)) { code [0xBA] with a := 0x02, d := 0x05 } = some (0x02, fl 1 0 0 0 1) := by
  decide

-- R138
theorem test_cpi : look (fun t => (t.a, t.flags)) { code [0xFE, 0xD9] with a := 0x40 } = some (0x40, fl 0 0 0 0 1) := by
  decide

-- R139
theorem test_rlc : look (fun t => (t.a, t.flags)) { code [0x07] with a := 0xF2 } = some (0xE5, fl 0 0 0 0 1) := by decide

-- R140
theorem test_rrc : look (fun t => (t.a, t.flags)) { code [0x0F] with a := 0xF2, flags := fl 0 0 0 0 1 } =
    some (0x79, fl 0 0 0 0 0) := by decide

-- R141
theorem test_ral : look (fun t => (t.a, t.flags)) { code [0x17] with flags := fl 0 0 0 0 1 } = some (0x01, fl 0 0 0 0 0) := by
  decide

-- R142
theorem test_rar : look (fun t => (t.a, t.flags)) { code [0x1F] with a := 0x01 } = some (0x00, fl 0 0 0 0 1) := by decide

-- R143
theorem test_cma : look (fun t => (t.a, t.flags)) { code [0x2F] with a := 0x51, flags := fl 1 1 0 0 1 } =
    some (0xAE, fl 1 1 0 0 1) := by decide

-- R144, R145
theorem test_cmc : look (·.flags) { code [0x3F] with flags := fl 1 0 1 0 1 } = some (fl 1 0 1 0 0) := by decide

theorem test_stc : look (·.flags) { code [0x37] with flags := fl 1 0 1 0 0 } = some (fl 1 0 1 0 1) := by decide

/-! Control transfer. -/

-- R161
theorem test_jmp : look (·.pc) (code [0xC3, 0x7D, 0x6B]) = some 0x6B7D := by decide

/-- Each conditional jump with the one flag it tests at both values and every other flag against it (R160, R163 to R170). -/
theorem test_conditional_jumps :
    [(0xC2, fl 1 0 1 1 1, 0x9FC5), (0xC2, fl 0 1 0 0 0, 0x0103), (0xCA, fl 0 1 0 0 0, 0x9FC5), (0xCA, fl 1 0 1 1 1, 0x0103),
     (0xD2, fl 1 1 1 1 0, 0x9FC5), (0xD2, fl 0 0 0 0 1, 0x0103), (0xDA, fl 0 0 0 0 1, 0x9FC5), (0xDA, fl 1 1 1 1 0, 0x0103),
     (0xE2, fl 1 1 1 0 1, 0x9FC5), (0xE2, fl 0 0 0 1 0, 0x0103), (0xEA, fl 0 0 0 1 0, 0x9FC5), (0xEA, fl 1 1 1 0 1, 0x0103),
     (0xF2, fl 0 1 1 1 1, 0x9FC5), (0xF2, fl 1 0 0 0 0, 0x0103), (0xFA, fl 1 0 0 0 0, 0x9FC5),
     (0xFA, fl 0 1 1 1 1, (0x0103 : Addr))].all (fun p : Byte × Flags × Addr =>
        look (·.pc) { code [p.1, 0xC5, 0x9F] with flags := p.2.1 } == some p.2.2) = true := by decide

-- R171, R176
theorem test_call : look (fun t => (t.byteAt 0x7FFF, t.byteAt 0x7FFE, t.sp, t.pc))
    (stored 0x1234 [0xCD, 0xD2, 0xB7] { State.reset with pc := 0x1234, sp := 0x8000 }) =
    some (0x12, 0x37, 0x7FFE, 0xB7D2) := by decide

theorem test_call_wraps : look (fun t => (t.byteAt 0x0000, t.byteAt 0xFFFF, t.sp))
    { code [0xCD, 0xD2, 0xB7] with sp := 0x0001 } = some (0x01, 0x03, 0xFFFF) := by decide

/-- Each conditional call, taken and not taken (R173 to R180). -/
theorem test_conditional_calls :
    [(0xC4, fl 1 0 1 1 1, 0x7FFE), (0xC4, fl 0 1 0 0 0, 0x8000), (0xCC, fl 0 1 0 0 0, 0x7FFE), (0xCC, fl 1 0 1 1 1, 0x8000),
     (0xD4, fl 1 1 1 1 0, 0x7FFE), (0xD4, fl 0 0 0 0 1, 0x8000), (0xDC, fl 0 0 0 0 1, 0x7FFE), (0xDC, fl 1 1 1 1 0, 0x8000),
     (0xE4, fl 1 1 1 0 1, 0x7FFE), (0xE4, fl 0 0 0 1 0, 0x8000), (0xEC, fl 0 0 0 1 0, 0x7FFE), (0xEC, fl 1 1 1 0 1, 0x8000),
     (0xF4, fl 0 1 1 1 1, 0x7FFE), (0xF4, fl 1 0 0 0 0, 0x8000), (0xFC, fl 1 0 0 0 0, 0x7FFE),
     (0xFC, fl 0 1 1 1 1, (0x8000 : Addr))].all (fun p : Byte × Flags × Addr =>
        look (·.sp) { code [p.1, 0xF6, 0xDE] with flags := p.2.1 } == some p.2.2) = true := by decide

-- R181
theorem test_ret : look (fun t => (t.pc, t.sp)) (stored 0x7FFE [0x37, 0x12] { code [0xC9] with sp := 0x7FFE }) =
    some (0x1237, 0x8000) := by decide

/-- Each conditional return, taken and not taken (R183 to R190). -/
theorem test_conditional_returns :
    [(0xC0, fl 1 0 1 1 1, 0x4000), (0xC0, fl 0 1 0 0 0, 0x3FFE), (0xC8, fl 0 1 0 0 0, 0x4000), (0xC8, fl 1 0 1 1 1, 0x3FFE),
     (0xD0, fl 1 1 1 1 0, 0x4000), (0xD0, fl 0 0 0 0 1, 0x3FFE), (0xD8, fl 0 0 0 0 1, 0x4000), (0xD8, fl 1 1 1 1 0, 0x3FFE),
     (0xE0, fl 1 1 1 0 1, 0x4000), (0xE0, fl 0 0 0 1 0, 0x3FFE), (0xE8, fl 0 0 0 1 0, 0x4000), (0xE8, fl 1 1 1 0 1, 0x3FFE),
     (0xF0, fl 0 1 1 1 1, 0x4000), (0xF0, fl 1 0 0 0 0, 0x3FFE), (0xF8, fl 1 0 0 0 0, 0x4000),
     (0xF8, fl 0 1 1 1 1, (0x3FFE : Addr))].all (fun p : Byte × Flags × Addr =>
        look (·.sp) { code [p.1] with flags := p.2.1, sp := 0x3FFE } == some p.2.2) = true := by decide

-- R191
theorem test_rst : look (fun t => (t.byteAt 0x8FFF, t.byteAt 0x8FFE, t.sp, t.pc))
    (stored 0x2345 [0xF7] { State.reset with pc := 0x2345, sp := 0x9000 }) = some (0x23, 0x46, 0x8FFE, 0x0030) := by decide

-- R192
theorem test_pchl : look (·.pc) { code [0xE9] with h := 0x41, l := 0x3E } = some 0x413E := by decide

/-! Stack. -/

-- R200
theorem test_push : look (fun t => (t.byteAt 0x3A2B, t.byteAt 0x3A2A, t.sp))
    { code [0xD5] with d := 0x8F, e := 0x9D, sp := 0x3A2C } = some (0x8F, 0x9D, 0x3A2A) := by decide

theorem test_push_psw : look (fun t => (t.byteAt 0x5029, t.byteAt 0x5028))
    { code [0xF5] with a := 0x1F, flags := fl 0 1 0 1 1, sp := 0x502A } = some (0x1F, 0x47) := by decide

-- R201
theorem test_pop : look (fun t => (t.l, t.h, t.sp)) (stored 0x1239 [0x3D, 0x93] { code [0xE1] with sp := 0x1239 }) =
    some (0x3D, 0x93, 0x123B) := by decide

theorem test_pop_psw : look (fun t => (t.a, t.flags, t.sp)) (stored 0x2C00 [0xC3, 0xFF] { code [0xF1] with sp := 0x2C00 }) =
    some (0xFF, fl 1 1 0 0 1, 0x2C02) := by decide

-- R202
theorem test_xthl : look (fun t => (t.hl, t.byteAt 0x10AD, t.byteAt 0x10AE, t.sp))
    (stored 0x10AD [0xF0, 0x0D] { code [0xE3] with h := 0x0B, l := 0x3C, sp := 0x10AD }) =
    some (0x0DF0, 0x3C, 0x0B, 0x10AD) := by decide

-- R203
theorem test_sphl : look (·.sp) { code [0xF9] with h := 0x50, l := 0x6C } = some 0x506C := by decide

/-! Input and output, interrupt control, halt. -/

-- R210
theorem test_in : look (fun t => (t.a, t.busAnswers, t.events)) { code [0xDB, 0x2A] with busAnswers := [0x5E, 0x11] } =
    some (0x5E, [0x11], [.portRead 0x2A 0x5E]) := by decide

-- R211
theorem test_out : look (fun t => (t.a, t.events)) { code [0xD3, 0xC7] with a := 0x81 } =
    some (0x81, [.portWrite 0xC7 0x81]) := by decide

-- R220: EIWAIT is 2 after EI's rule and 1 after its own end
theorem test_ei : look (fun t => (t.inte, t.eiWait, t.pc)) { code [0xFB] with intSource := source [some 0xC7] } =
    some (true, 1, 0x0101) := by decide

-- R221
theorem test_di : look (fun t => (t.inte, t.eiWait)) { code [0xF3] with inte := true, intSource := source [some 0xC7] } =
    some (false, 0) := by decide

-- R230
theorem test_hlt : look (fun t => (t.halted, t.pc)) (code [0x76]) = some (true, 0x0101) := by decide

-- R231
theorem test_nop : nextState (step { code [0x00] with intSource := source [] }) =
    some { code [0x00] with pc := 0x0101, intSource := source [] } := by decide

-- R244: RST 7 supplied at the end of a NOP
theorem test_interrupt : look (fun t => (t.pc, t.sp, t.inte, t.byteAt 0x7FFF, t.byteAt 0x7FFE))
    { code [0x00] with inte := true, intSource := source [some 0xFF] } = some (0x0038, 0x7FFE, false, 0x01, 0x01) := by decide

-- R220: after EI and one NOP with EiDelay = 0 the request is taken; with EiDelay = 1 it is not
theorem test_ei_delay :
    look (·.pc) { code [0x00] with inte := true, eiWait := 0, intSource := source [some 0xCF] } = some 0x0008 ∧
    look (·.pc) { code [0x00] with inte := true, eiWait := 1, intSource := source [some 0xCF] } = some 0x0101 := by decide

-- R70, R245, R80: the three stops
theorem test_unused_opcode_faults : step (code [0xED]) = .fault (.illegalOpcode 0xED) := by rfl

theorem test_foreign_interrupt_opcode_refused :
    step { code [0x00] with inte := true, intSource := source [some 0xCD] } = .refused (.interruptOpcodeNotRst 0xCD) := by rfl

theorem test_mov_m_m_refused : exec (.mov .m .m) State.reset = .refused .movMemMem := by rfl

-- D13: what answers at an address
theorem test_rom_ignores_write : look (fun t => t.byteAt 0x0200)
    (stored 0x0200 [0x44] { code [0x77] with a := 0x99, h := 0x02, memMap := mapOf 0x0200 1 .rom }) = some 0x44 := by decide

theorem test_device_read : look (fun t => (t.a, t.events))
    { code [0x7E] with h := 0x02, memMap := mapOf 0x0200 1 .device, busAnswers := [0x66] } =
    some (0x66, [.memRead 0x0200 0x66]) := by decide

-- D3: an instruction across the end of memory
theorem test_fetch_wraps : look (fun t => (t.a, t.pc))
    (stored 0xFFFF [0x3E, 0x25] { State.reset with pc := 0xFFFF }) = some (0x25, 0x0001) := by decide

theorem test_with_fetch_word : look (fun t => (t.bc, t.pc)) (State.reset.withFetchWord 24 0x123401) =
    some (0x1234, 0x0003) := by decide

theorem test_reset_memory_wf : Memory.wf State.reset.mem = true ∧ Memory.wf (code [0x11, 0x00, 0xAB]).mem = true := by decide

/-! Witnesses: for every obligation with hypotheses, states and operands that meet them, for each clause, at the ends of the
ranges where a clause has one. -/

theorem witness_DecodeOfEncodeIsTheInstruction :
    (Instr.mov .m .a).wellFormed = true ∧ (Instr.lxi .sp 0xFFFF).wellFormed = true := by decide

theorem witness_EncodeOfDecodeIsTheBytes :
    decode [0xFC, 0xFF, 0x00, 0x76] = .ok (.cm 0x00FF, [0x76]) ∧ decode [0x76] = .ok (.hlt, []) := ⟨rfl, rfl⟩

theorem witness_LengthIsDecidedByOpcode :
    (decode [0xFC, 1, 2, 3] = .ok (.cm 0x0201, [3]) ∧ (0xFC : Byte) ∈ threeByteOpcodes) ∧
    (decode [0xDB, 1, 2] = .ok (.inPort 1, [2]) ∧ (0xDB : Byte) ∉ threeByteOpcodes ∧ (0xDB : Byte) ∈ twoByteOpcodes) ∧
    (decode [0xFF, 1] = .ok (.rst 7, [1]) ∧ (0xFF : Byte) ∉ threeByteOpcodes ∧ (0xFF : Byte) ∉ twoByteOpcodes) :=
  ⟨⟨rfl, by decide⟩, ⟨rfl, by decide, by decide⟩, rfl, by decide, by decide⟩

theorem witness_TwelveOpcodesAreUnused : (0xFD : Byte) ∈ unusedOpcodes ∧ (0xFE : Byte) ∉ unusedOpcodes := by decide

/-- LDA FFFFh at FFFEh, its bytes across the end of memory. -/
def ldaAtTheEnd : State := stored 0xFFFE [0x3A, 0xFF, 0xFF] { State.reset with pc := 0xFFFE }

theorem witness_StepRunsTheDecodedInstruction :
    ldaAtTheEnd.halted = false ∧
    decode [ldaAtTheEnd.byteAt 0xFFFE, ldaAtTheEnd.byteAt 0xFFFF, ldaAtTheEnd.byteAt 0x0000] = .ok (.lda 0xFFFF, []) ∧
    ∀ k, k < (encode (.lda 0xFFFF)).length → storedAt ldaAtTheEnd (ldaAtTheEnd.pc + BitVec.ofNat 16 k) :=
  ⟨by decide, by rfl, fun _ _ => .inl rfl⟩

theorem witness_StepFaultsOnUnusedOpcode :
    (code [0x08]).halted = false ∧ storedAt (code [0x08]) (code [0x08]).pc ∧
    (code [0x08]).byteAt (code [0x08]).pc ∈ unusedOpcodes := ⟨by decide, .inl rfl, by decide⟩

theorem witness_StepStopsForTwoReasonsOnly :
    (∃ t, step (code [0x00]) = .next t) ∧
    ((0x08 : Byte) ∈ unusedOpcodes ∧ (code [0x08]).halted = false ∧ (fetch8 (code [0x08])).1 = 0x08) ∧
    (rstNumber 0xCD = none ∧ (askSource (source [some 0xCD])).1 = some 0xCD) :=
  ⟨⟨_, rfl⟩, by decide, by decide⟩

theorem witness_EveryInstructionCompletes :
    (Instr.hlt).wellFormed = true ∧ (Instr.mov .m .m).wellFormed = false := by decide

/-- RAM but for a ROM byte at FFFEh and a device at FFFFh, which will drive 12h and 34h. -/
def mixed : State :=
  { code [0x00] with
    memMap := mapOf 0xFFFE 1 .rom ++ mapOf 0xFFFF 1 .device ++ mapOf 0xFFFD 1 .absent, busAnswers := [0x12, 0x34] }

theorem witness_MemoryReadReturnsTheByteThere :
    storedAt mixed 0xFFFE ∧ storedAt mixed 0x0000 ∧ ramAt mixed 0xFFFC ∧ ¬ storedAt mixed 0xFFFF ∧
    ¬ storedAt mixed 0xFFFD ∧ mixed.busAnswers = 0x12 :: [0x34] := by
  unfold storedAt ramAt; decide

theorem witness_MemoryWriteStoresInRamOnly :
    ramAt mixed 0xFFFC ∧ ramAt mixed 0x0000 ∧ ¬ ramAt mixed 0xFFFE ∧ (0xFFFF : Addr) ≠ 0xFFFE := by
  unfold ramAt; decide

theorem witness_MovCopiesTheOperand : ¬ (Operand8.m = .m ∧ Operand8.h = .m) ∧ ¬ (Operand8.a = .m ∧ Operand8.m = .m) := by
  decide

theorem witness_AccumulatorLoadsAndStores :
    memRead 0x2010 (stored 0x2010 [0x3F] State.reset) = (0x3F, stored 0x2010 [0x3F] State.reset) ∧
    (0x2010 : Addr) = joinBytes 0x20 0x10 := by decide

theorem witness_HlLoadAndStore : storedAt mixed 0xFFFE ∧ storedAt State.reset 0xFFFF ∧ storedAt State.reset (0xFFFF + 1) ∧
    ramAt State.reset 0xFFFF ∧ ramAt State.reset (0xFFFF + 1) ∧ (1 : Addr) ≠ 0xFFFF ∧ (1 : Addr) ≠ 0xFFFF + 1 := by
  unfold storedAt ramAt; decide

/-- The state after reset with the other body of `Daa`. -/
def otherDaa : State := { State.reset with params := { defaultParams with daa := .other }, flags := fl 0 0 0 0 1 }

theorem witness_DaaAdjustsAccumulatorOnly :
    State.reset.params.daa = .standard ∧ { State.reset with flags := fl 0 0 0 0 1 }.flags.cy = true ∧
    (bcdValid 0x99 ∧ bcdValid 0x00 ∧ State.reset.flags.ac = false ∧ State.reset.flags.cy = false) ∧
    otherDaa.params.daa = .other := by unfold bcdValid; decide

theorem witness_DaaGivesTheDecimalSum :
    State.reset.params.daa = .standard ∧ bcdValid { State.reset with a := 0x99 }.a ∧ bcdValid 0x99 := by
  unfold bcdValid; decide

/-- Each condition both true and false somewhere. -/
theorem witness_conditions (cc : Cond) : CondTrue cc (if cc = .nz ∨ cc = .nc ∨ cc = .po ∨ cc = .p then fl 0 0 0 0 0 else fl 1 1 1 1 1) ∧
    ¬ CondTrue cc (if cc = .nz ∨ cc = .nc ∨ cc = .po ∨ cc = .p then fl 1 1 1 1 1 else fl 0 0 0 0 0) := by
  cases cc <;> exact ⟨rfl, Bool.noConfusion⟩

theorem witness_JumpsReplaceThePc : CondTrue .nz (fl 1 0 1 1 1) ∧ ¬ CondTrue .nz (fl 0 1 0 0 0) := ⟨rfl, Bool.noConfusion⟩

theorem witness_ConditionalCallsAndRst : CondTrue .pe (fl 0 0 0 1 0) ∧ ¬ CondTrue .pe (fl 1 1 1 0 1) :=
  ⟨rfl, Bool.noConfusion⟩

theorem witness_ReturnsPopThePc : CondTrue .m (fl 1 0 0 0 0) ∧ ¬ CondTrue .m (fl 0 1 1 1 1) := ⟨rfl, Bool.noConfusion⟩

/-- SP = 0001h: the two bytes of a push go to 0000h and FFFFh. -/
def spOne : State := { code [0x00] with sp := 0x0001 }

/-- `spOne` with a ROM byte at 0000h, where the high byte of a push goes. -/
def spOneRom : State := { spOne with memMap := mapOf 0x0000 1 .rom }

theorem witness_CallStoresTheReturnAddress :
    ramAt spOne (spOne.sp - 1) ∧ ramAt spOne (spOne.sp - 2) ∧ (2 : Addr) ≠ spOne.sp - 1 ∧ (2 : Addr) ≠ spOne.sp - 2 ∧
    ¬ ramAt spOneRom (spOneRom.sp - 1) ∧ ramAt spOneRom (spOneRom.sp - 2) := by unfold ramAt; decide

theorem witness_ReturnComesBackFromCall :
    ramAt spOne (spOne.sp - 1) ∧ ramAt spOne (spOne.sp - 2) ∧
    ∃ t, exec (.call 0x1234) spOne = .next t ∧
      ∃ u : State, u.a ≠ t.a ∧ u.sp = t.sp ∧ u.memMap = t.memMap ∧
        u.byteAt (spOne.sp - 1) = t.byteAt (spOne.sp - 1) ∧ u.byteAt (spOne.sp - 2) = t.byteAt (spOne.sp - 2) :=
  ⟨rfl, rfl, _, rfl, { callTo 0x1234 spOne with a := 0x77 }, by decide, rfl, rfl, rfl, rfl⟩

theorem witness_PushStoresThePair :
    ramAt spOne (spOne.sp - 1) ∧ ramAt spOne (spOne.sp - 2) ∧ (2 : Addr) ≠ spOne.sp - 1 ∧ (2 : Addr) ≠ spOne.sp - 2 := by
  unfold ramAt; decide

/-- SP = FFFFh: the two bytes of a pop come from FFFFh and 0000h. -/
def spTop : State := stored 0xFFFF [0x3D, 0x93] { State.reset with sp := 0xFFFF }

theorem witness_PopLoadsThePair : storedAt spTop spTop.sp ∧ storedAt spTop (spTop.sp + 1) := by unfold storedAt; decide

theorem witness_PopRestoresWhatPushSaved : ramAt spOne (spOne.sp - 1) ∧ ramAt spOne (spOne.sp - 2) := by
  unfold ramAt; decide

theorem witness_XthlExchangesTopOfStack :
    ramAt spTop spTop.sp ∧ ramAt spTop (spTop.sp + 1) ∧ (1 : Addr) ≠ spTop.sp ∧ (1 : Addr) ≠ spTop.sp + 1 := by
  unfold ramAt; decide

/-- Devices at every address, which will drive 11h (LXI DE), 34h and 56h; SP and PC = FFFFh. -/
def allDevices : State :=
  { State.reset with memMap := mapOf 0 65536 .device, busAnswers := [0x11, 0x34, 0x56], sp := 0xFFFF, pc := 0xFFFF }

theorem witness_DevicesSeeTheByteOrder :
    (isDevice allDevices 0xFFFF ∧ isDevice allDevices (0xFFFF + 1)) ∧
    (isDevice allDevices (allDevices.sp - 1) ∧ isDevice allDevices (allDevices.sp - 2)) ∧
    (isDevice allDevices allDevices.sp ∧ isDevice allDevices (allDevices.sp + 1)) ∧
    CondTrue .nz allDevices.flags ∧ allDevices.busAnswers = 0x11 :: 0x34 :: [0x56] ∧ (0x11 : Byte) ∈ threeByteOpcodes ∧
    (isDevice allDevices allDevices.pc ∧ isDevice allDevices (allDevices.pc + 1) ∧ isDevice allDevices (allDevices.pc + 2)) := by
  unfold isDevice CondTrue; decide

theorem witness_PortsExchangeBytesWithThePlatform :
    mixed.busAnswers = 0x12 :: [0x34] ∧ State.reset.busAnswers = [] := by decide

theorem witness_AcceptSavesOnlyThePc :
    ramAt spOne (spOne.sp - 1) ∧ ramAt spOne (spOne.sp - 2) ∧ (2 : Addr) ≠ spOne.sp - 1 ∧ (2 : Addr) ≠ spOne.sp - 2 := by
  unfold ramAt; decide

/-- Interrupts enabled, EIWAIT = 0, and a list of answers of the interrupt source. -/
def asked (answers : List (Option Byte)) : State := { code [0x00] with inte := true, intSource := source answers }

theorem witness_AcceptanceCheckByCases :
    { asked [] with eiWait := 1 }.eiWait > 0 ∧ (State.reset.eiWait = 0 ∧ State.reset.inte = false) ∧
    ((asked []).eiWait = 0 ∧ (asked []).inte = true) ∧ askSource (asked []).intSource = (none, source []) ∧
    askSource (asked [none, some 0xC7]).intSource = (none, source [some 0xC7]) ∧
    askSource (asked [some 0xFF]).intSource = (some (opcodeOf 0b11 7 0b111), source []) ∧
    (askSource (asked [some 0xCD]).intSource = (some 0xCD, source []) ∧ ∀ n, (0xCD : Byte) ≠ opcodeOf 0b11 n 0b111) := by
  decide

/-- EI, RET and DI from 0100h, with SP = 7FFEh and a request at every check. -/
def eiRet : State :=
  stored 0x7FFE [0x37, 0x12] { code [0xFB, 0xC9, 0xF3] with sp := 0x7FFE, intSource := source [some 0xFF, some 0xFF, some 0xFF] }

theorem witness_EiDelaysAcceptance :
    (eiRet.halted = false ∧ ∃ s1, fetchInstr eiRet = .ok (.ei, s1)) ∧
    ∃ s t1 t2 : State, s.halted = false ∧ s.eiWait = 1 ∧ fetchInstr s = .ok (.ret, t1) ∧ exec .ret t1 = .next t2 ∧
      Instr.ret ≠ .di :=
  ⟨⟨rfl, _, rfl⟩, { eiRet with pc := 0x0101, inte := true, eiWait := 1 }, _, _, rfl, rfl, rfl, rfl, by decide⟩

theorem witness_EiThenRetReturnsFirst :
    eiRet.halted = false ∧ storedAt eiRet eiRet.pc ∧ storedAt eiRet (eiRet.pc + 1) ∧ eiRet.byteAt eiRet.pc = 0xFB ∧
    eiRet.byteAt (eiRet.pc + 1) = 0xC9 ∧ (∃ t, step eiRet = .next t) ∧ eiRet.params.eiDelay = .one ∧ { eiRet with params := otherParams }.params.eiDelay = .zero ∧
    (∃ t, step { eiRet with params := otherParams } = .next t) ∧
    storedAt eiRet eiRet.sp ∧ storedAt eiRet (eiRet.sp + 1) :=
  ⟨rfl, .inl rfl, .inl rfl, by decide, by decide, ⟨_, rfl⟩, rfl, rfl, ⟨_, rfl⟩, .inl rfl, .inl rfl⟩

theorem witness_RetResumesTheInterruptedProgram : ramAt spOne (spOne.sp - 1) ∧ ramAt spOne (spOne.sp - 2) := by
  unfold ramAt; decide

theorem witness_FlagsChangeOnlyAsListed :
    (∃ t, exec (.dad .hl) mixed = .next t) ∧ FlagName.z ∉ flagsWritten (.dad .hl) ∧
    (Instr.xra .m ∈ [Instr.ana .m, .ani 1, .xra .m, .xri 1, .ora .m, .ori 1] ∧ ∃ t, exec (.xra .m) mixed = .next t) ∧
    (agreeOn (flagsRead (.adc .b)) (fl 1 1 1 1 1) (fl 0 0 0 0 1) ∧
      ∃ t, exec (.adc .b) { mixed with flags := fl 1 1 1 1 1 } = .next t) :=
  ⟨⟨_, rfl⟩, by decide, ⟨by decide, _, rfl⟩, by unfold agreeOn; decide, _, rfl⟩

theorem witness_MemoryChangesOnlyWhereStored :
    (∃ t, exec (.push .bc) spOne = .next t) ∧ (0x0001 : Addr) ∉ storeAddrs (.push .bc) spOne ∧
    (0x0000 : Addr) ∈ storeAddrs (.push .bc) spOne ∧ (0xFFFF : Addr) ∈ storeAddrs (.push .bc) spOne :=
  ⟨⟨_, rfl⟩, by decide, by decide, by decide⟩

theorem witness_RegistersChangeOnlyAsNamed :
    (∃ t, exec (.dcx .hl) spOne = .next t) ∧ writesPc (.dcx .hl) = false ∧ Operand8.b ≠ .m ∧ Operand8.b ∉ destinations (.dcx .hl) ∧
    writesSp (.dcx .hl) = false ∧ Instr.dcx .hl ≠ .ei ∧ Instr.dcx .hl ≠ .di ∧ Instr.dcx .hl ≠ .hlt :=
  ⟨⟨_, rfl⟩, by decide, by decide, by decide, by decide, by decide, by decide, by decide⟩

theorem witness_OnlyPortsTouchThePlatform :
    (∀ addr, storedAt spTop addr) ∧ (∃ t, exec .xthl spTop = .next t) ∧ (∀ port, Instr.xthl ≠ .inPort port) ∧
    ∀ port, Instr.xthl ≠ .outPort port :=
  ⟨fun _ => .inl rfl, ⟨_, rfl⟩, fun _ => Instr.noConfusion, fun _ => Instr.noConfusion⟩

theorem witness_StepKeepsTheInvariant :
    (eiRet.Inv ∧ ∃ t, step eiRet = .next t) ∧
    ({ eiRet with inte := true, eiWait := 2 }.Inv ∧ ∃ t, step { eiRet with inte := true, eiWait := 2 } = .next t) :=
  ⟨⟨by unfold State.Inv; decide, _, rfl⟩, by unfold State.Inv; decide, _, rfl⟩

theorem witness_StepKeepsThePlatformsChoices : ∃ t, step mixed = .next t := ⟨_, rfl⟩

theorem witness_StepNeverWritesOutsideRam :
    (∃ t, step { spOneRom with inte := true, intSource := source [some 0xFF] } = .next t) ∧
    ¬ ramAt { spOneRom with inte := true, intSource := source [some 0xFF] } 0x0000 := ⟨⟨_, rfl⟩, by unfold ramAt; decide⟩

theorem witness_OnlyEiEnablesInterrupts : ∃ t, step eiRet = .next t ∧ eiRet.inte = false ∧ t.inte = true :=
  ⟨_, rfl, rfl, rfl⟩

theorem witness_HaltIsEnteredByHltAndLeftByInterrupt :
    (∃ t, step (code [0x76]) = .next t ∧ (code [0x76]).halted = false ∧ t.halted = true) ∧
    ∃ t, step { asked [some 0xC7] with halted := true } = .next t ∧
      { asked [some 0xC7] with halted := true }.halted = true ∧ t.halted = false :=
  ⟨⟨_, rfl, rfl, rfl⟩, _, rfl, rfl, rfl⟩

/-- Halted after EI with no interrupt source, and halted with interrupts disabled and a source that requests. -/
theorem witness_FinalStateIsFinal :
    { asked [none] with halted := true, eiWait := 1 }.Final ∧ { mixed with halted := true, intSource := source [some 0xC7] }.Final ∧
    ({ asked [none, some 0xCF] with halted := true }.halted = true ∧ (asked [none, some 0xCF]).inte = true ∧
      (asked [none, some 0xCF]).eiWait = 0 ∧ (∀ j, j < 1 → answerAt j (asked [none, some 0xCF]).intSource = none) ∧
      answerAt 1 (asked [none, some 0xCF]).intSource = some (opcodeOf 0b11 1 0b111)) :=
  ⟨⟨rfl, .inr fun k => answerAt_silent k rfl⟩, ⟨rfl, .inl rfl⟩, by decide⟩

/-- A timer that requests RST 7 at every third check for ever: the answers 0 to 8. -/
theorem witness_InterruptSourceAdmitsEveryPattern :
    (List.range 9).map (fun k => answerAt k { listed := [], after := .again none [none, some 0xFF], drawn := 0 }) =
      [none, none, some 0xFF, none, none, some 0xFF, none, none, some 0xFF] ∧
    (∃ h : 0 < [some (0xC7 : Byte)].length, answerAt 0 (source [some 0xC7]) = [some (0xC7 : Byte)][0]) :=
  ⟨by decide, by decide, rfl⟩

/-- STA 0103h at 0100h, with A = 76h. -/
def staNext : State := { code [0x32, 0x03, 0x01] with a := 0x76 }

theorem witness_NextFetchSeesTheStore :
    staNext.halted = false ∧ staNext.inte = false ∧ storedAt staNext staNext.pc ∧ storedAt staNext (staNext.pc + 1) ∧
    storedAt staNext (staNext.pc + 2) ∧ ramAt staNext 0x0103 ∧ (0x0103 : Addr) = staNext.pc + 3 ∧
    staNext.byteAt staNext.pc = 0x32 ∧ staNext.byteAt (staNext.pc + 1) = lowByte 0x0103 ∧
    staNext.byteAt (staNext.pc + 2) = highByte 0x0103 ∧ ∃ t, step staNext = .next t :=
  ⟨rfl, rfl, .inl rfl, .inl rfl, .inl rfl, rfl, by decide, by decide, by decide, by decide, _, rfl⟩

end Sys2Proof.Tests
end

section
/-! SUPPORT. Which flags each instruction writes and on which it depends (R30), by one law: an instruction started with other
flags, alike on those it reads, comes out the same but for the flags it does not write, which stay as they were given. -/

namespace Sys2Proof.FlagRules

open Sys2Proof.Machine Sys2Proof.Config Sys2Proof.Spec

/-! What the state reads after its flags are replaced, and every update moved inside that replacement. -/

@[simp] theorem setFlags_self (s : State) : s.setFlags s.flags = s := rfl
theorem setFlags_eq_self {s : State} {g : Flags} (h : s.flags = g) : s.setFlags g = s := by rw [← h, setFlags_self]
@[simp] theorem setFlags_setFlags (s : State) (f g : Flags) : (s.setFlags f).setFlags g = s.setFlags g := rfl
@[simp] theorem setFlags_hl (s : State) (g : Flags) : (s.setFlags g).hl = s.hl := rfl
@[simp] theorem setFlags_de (s : State) (g : Flags) : (s.setFlags g).de = s.de := rfl
@[simp] theorem setFlags_byteAt (s : State) (g : Flags) (addr : Addr) : (s.setFlags g).byteAt addr = s.byteAt addr := rfl

@[simp] theorem setA_setFlags (s : State) (g : Flags) (v : Byte) : (s.setFlags g).setA v = (s.setA v).setFlags g := rfl
@[simp] theorem setH_setFlags (s : State) (g : Flags) (v : Byte) : (s.setFlags g).setH v = (s.setH v).setFlags g := rfl
@[simp] theorem setL_setFlags (s : State) (g : Flags) (v : Byte) : (s.setFlags g).setL v = (s.setL v).setFlags g := rfl
@[simp] theorem setDe_setFlags (s : State) (g : Flags) (v : Addr) : (s.setFlags g).setDe v = (s.setDe v).setFlags g := rfl
@[simp] theorem setHl_setFlags (s : State) (g : Flags) (v : Addr) : (s.setFlags g).setHl v = (s.setHl v).setFlags g := rfl
@[simp] theorem setSp_setFlags (s : State) (g : Flags) (v : Addr) : (s.setFlags g).setSp v = (s.setSp v).setFlags g := rfl
@[simp] theorem setPc_setFlags (s : State) (g : Flags) (v : Addr) : (s.setFlags g).setPc v = (s.setPc v).setFlags g := rfl
@[simp] theorem setInte_setFlags (s : State) (g : Flags) (v : Bool) :
    (s.setFlags g).setInte v = (s.setInte v).setFlags g := rfl
@[simp] theorem setEiWait_setFlags (s : State) (g : Flags) (v : Nat) :
    (s.setFlags g).setEiWait v = (s.setEiWait v).setFlags g := rfl
@[simp] theorem setHalted_setFlags (s : State) (g : Flags) (v : Bool) :
    (s.setFlags g).setHalted v = (s.setHalted v).setFlags g := rfl

/-! The accesses: none reads a flag, and each keeps the flags it is given. -/

@[simp] theorem draw_setFlags (s : State) (g : Flags) : draw (s.setFlags g) = ((draw s).1, (draw s).2.setFlags g) := by
  cases h : s.busAnswers <;> simp only [draw, State.setFlags_busAnswers, h] <;> rfl

@[simp] theorem record_setFlags (s : State) (g : Flags) (e : BusEvent) :
    (s.setFlags g).record e = (s.record e).setFlags g := rfl

@[simp] theorem memRead_setFlags (addr : Addr) (s : State) (g : Flags) :
    memRead addr (s.setFlags g) = ((memRead addr s).1, (memRead addr s).2.setFlags g) := by
  cases h : kindAt s.memMap addr <;> simp [memRead, h]

@[simp] theorem memWrite_setFlags (addr : Addr) (v : Byte) (s : State) (g : Flags) :
    memWrite addr v (s.setFlags g) = (memWrite addr v s).setFlags g := by
  cases h : kindAt s.memMap addr <;> simp only [memWrite, State.setFlags_memMap, h] <;> rfl

@[simp] theorem ioRead_setFlags (port : Byte) (s : State) (g : Flags) :
    ioRead port (s.setFlags g) = ((ioRead port s).1, (ioRead port s).2.setFlags g) := by
  simp [ioRead]

@[simp] theorem ioWrite_setFlags (port v : Byte) (s : State) (g : Flags) :
    ioWrite port v (s.setFlags g) = (ioWrite port v s).setFlags g := rfl

@[simp] theorem push16_setFlags (v : Addr) (s : State) (g : Flags) :
    push16 v (s.setFlags g) = (push16 v s).setFlags g := by
  simp [push16]

@[simp] theorem pop16_setFlags (s : State) (g : Flags) :
    pop16 (s.setFlags g) = ((pop16 s).1, (pop16 s).2.setFlags g) := by
  simp [pop16]

@[simp] theorem jumpIf_setFlags (cond : Bool) (target : Addr) (s : State) (g : Flags) :
    jumpIf cond target (s.setFlags g) = (jumpIf cond target s).setFlags g := by
  cases cond <;> rfl

@[simp] theorem callTo_setFlags (target : Addr) (s : State) (g : Flags) :
    callTo target (s.setFlags g) = (callTo target s).setFlags g := by
  simp [callTo]

@[simp] theorem callIf_setFlags (cond : Bool) (target : Addr) (s : State) (g : Flags) :
    callIf cond target (s.setFlags g) = (callIf cond target s).setFlags g := by
  cases cond <;> simp [callIf]

@[simp] theorem returnTo_setFlags (s : State) (g : Flags) : returnTo (s.setFlags g) = (returnTo s).setFlags g := by
  simp [returnTo]

@[simp] theorem returnIf_setFlags (cond : Bool) (s : State) (g : Flags) :
    returnIf cond (s.setFlags g) = (returnIf cond s).setFlags g := by
  cases cond <;> simp [returnIf]

/-! The operand forms: only PSW reads or writes a flag. -/

@[simp] theorem readOperand_setFlags (r : Operand8) (s : State) (g : Flags) :
    readOperand r (s.setFlags g) = ((readOperand r s).1, (readOperand r s).2.setFlags g) := by
  cases r with
  | m => simp [readOperand]
  | b | c | d | e | h | l | a => rfl

@[simp] theorem writeOperand_setFlags (r : Operand8) (v : Byte) (s : State) (g : Flags) :
    writeOperand r v (s.setFlags g) = (writeOperand r v s).setFlags g := by
  cases r with
  | m => simp [writeOperand]
  | b | c | d | e | h | l | a => rfl

@[simp] theorem readPair_setFlags (p : RegPair) (s : State) (g : Flags) : readPair p (s.setFlags g) = readPair p s := by
  cases p <;> rfl

@[simp] theorem writePair_setFlags (p : RegPair) (v : Addr) (s : State) (g : Flags) :
    writePair p v (s.setFlags g) = (writePair p v s).setFlags g := by
  cases p <;> rfl

@[simp] theorem indexAddr_setFlags (p : IndexPair) (s : State) (g : Flags) :
    indexAddr p (s.setFlags g) = indexAddr p s := by
  cases p <;> rfl

theorem readStackPair_setFlags {p : StackPair} (hp : p ≠ .psw) (s : State) (g : Flags) :
    readStackPair p (s.setFlags g) = readStackPair p s := by
  cases p with
  | psw => exact absurd rfl hp
  | bc | de | hl => rfl

theorem writeStackPair_setFlags {p : StackPair} (hp : p ≠ .psw) (v : Addr) (s : State) (g : Flags) :
    writeStackPair p v (s.setFlags g) = (writeStackPair p v s).setFlags g := by
  cases p with
  | psw => exact absurd rfl hp
  | bc | de | hl => rfl

/-- Loading PSW forgets the flags before it (R201). -/
theorem writeStackPair_psw_setFlags (v : Addr) (s : State) (g : Flags) :
    writeStackPair .psw v (s.setFlags g) = writeStackPair .psw v s := rfl

theorem writeStackPair_psw_flags (v : Addr) (s : State) :
    (writeStackPair .psw v s).flags = flagsFromByte (lowByte v) := rfl

/-! The ALU: each writer of all five flags forgets the flags before it. -/

@[simp] theorem setAlu_setFlags (s : State) (r : Byte × Flags) (g : Flags) : (s.setFlags g).setAlu r = s.setAlu r := rfl

@[simp] theorem addToA_setFlags (v : Byte) (cin : Bool) (s : State) (g : Flags) :
    addToA v cin (s.setFlags g) = addToA v cin s := rfl

@[simp] theorem subFromA_setFlags (v : Byte) (bin : Bool) (s : State) (g : Flags) :
    subFromA v bin (s.setFlags g) = subFromA v bin s := rfl

@[simp] theorem logicToA_setFlags (v : Byte) (ac : Bool) (s : State) (g : Flags) :
    logicToA v ac (s.setFlags g) = logicToA v ac s := rfl

@[simp] theorem compareA_setFlags (v : Byte) (s : State) (g : Flags) :
    compareA v (s.setFlags g) = compareA v s := rfl

@[simp] theorem logicToA_flags_cy (v : Byte) (ac : Bool) (s : State) : (logicToA v ac s).flags.cy = false := rfl

/-! Choosing each flag from one of two settings. -/

/-- The named flags of `f`, and the others of `g`. -/
def mergeFlags (names : List FlagName) (f g : Flags) : Flags :=
  { s := if .s ∈ names then f.s else g.s
    z := if .z ∈ names then f.z else g.z
    ac := if .ac ∈ names then f.ac else g.ac
    p := if .p ∈ names then f.p else g.p
    cy := if .cy ∈ names then f.cy else g.cy }

theorem flagOf_mergeFlags (names : List FlagName) (f g : Flags) (n : FlagName) :
    flagOf (mergeFlags names f g) n = if n ∈ names then flagOf f n else flagOf g n := by
  cases n <;> rfl

@[simp] theorem mergeFlags_none (f g : Flags) : mergeFlags [] f g = g := rfl

@[simp] theorem mergeFlags_all (f g : Flags) : mergeFlags [.s, .z, .ac, .p, .cy] f g = f := rfl

@[simp] theorem mergeFlags_cy (f g : Flags) : mergeFlags [.cy] f g = setCY f.cy g := rfl

@[simp] theorem mergeFlags_allButCy (f g : Flags) : mergeFlags [.s, .z, .ac, .p] f g = setCY g.cy f := rfl

@[simp] theorem setCY_setCY (c d : Bool) (f : Flags) : setCY c (setCY d f) = setCY c f := rfl

theorem eq_of_agreeOn_all {f g : Flags} (h : agreeOn [.s, .z, .ac, .p, .cy] f g) : f = g := by
  obtain ⟨hs, hz, hac, hp, hcy⟩ : f.s = g.s ∧ f.z = g.z ∧ f.ac = g.ac ∧ f.p = g.p ∧ f.cy = g.cy := by
    simpa [agreeOn, flagOf] using h
  cases f; cases g; simp_all

/-- No condition looks at AC (R160). -/
theorem condHolds_congr (cc : Cond) {f g : Flags} (h : agreeOn [.s, .z, .p, .cy] f g) : condHolds cc f = condHolds cc g := by
  obtain ⟨hs, hz, hp, hcy⟩ : f.s = g.s ∧ f.z = g.z ∧ f.p = g.p ∧ f.cy = g.cy := by simpa [agreeOn, flagOf] using h
  cases cc <;> simp [condHolds, hs, hz, hp, hcy]

/-! The law of R30 and its proof for every instruction. -/

/-- Started with flags `g` instead, alike on those it reads, an instruction does the same, and each flag it does not write
is as `g` has it. -/
def RespectsFlagLists (i : Instr) : Prop :=
  ∀ (s t : State) (g : Flags), agreeOn (flagsRead i) s.flags g → exec i s = .next t →
    exec i (s.setFlags g) = .next (t.setFlags (mergeFlags (flagsWritten i) t.flags g))

/-- The law for an instruction that always completes, from the state `F` its meaning gives. -/
theorem RespectsFlagLists.of_completes {i : Instr} {F : State → State} (hi : ∀ s, exec i s = .next (F s))
    (hF : ∀ s g, agreeOn (flagsRead i) s.flags g →
      F (s.setFlags g) = (F s).setFlags (mergeFlags (flagsWritten i) (F s).flags g)) : RespectsFlagLists i := by
  intro s t g hg h
  rw [hi] at h
  cases h
  rw [hi, hF s g hg]

theorem exec_jumpOn (cc : Cond) (target : Addr) (s : State) :
    exec (jumpOn cc target) s = .next (jumpIf (condHolds cc s.flags) target s) := by cases cc <;> rfl

theorem exec_callOn (cc : Cond) (target : Addr) (s : State) :
    exec (callOn cc target) s = .next (callIf (condHolds cc s.flags) target s) := by cases cc <;> rfl

theorem exec_returnOn (cc : Cond) (s : State) :
    exec (returnOn cc) s = .next (returnIf (condHolds cc s.flags) s) := by cases cc <;> rfl

/-- A conditional instruction depends on the flags through its condition only, and writes none (R162, R172, R182). -/
theorem RespectsFlagLists.of_condition {i : Instr} {cc : Cond} {F : Bool → State → State}
    (hread : flagsRead i = [.s, .z, .p, .cy]) (hwrite : flagsWritten i = [])
    (hi : ∀ s, exec i s = .next (F (condHolds cc s.flags) s))
    (hF : ∀ b s g, F b (s.setFlags g) = (F b s).setFlags g) : RespectsFlagLists i := by
  refine .of_completes hi fun s g hg => ?_
  rw [hread] at hg
  rw [hF, State.setFlags_flags, condHolds_congr cc hg, hwrite, mergeFlags_none]

theorem jumpOn_respectsFlagLists (cc : Cond) (target : Addr) : RespectsFlagLists (jumpOn cc target) :=
  .of_condition (by cases cc <;> rfl) (by cases cc <;> rfl) (exec_jumpOn cc target) fun b => jumpIf_setFlags b target

theorem callOn_respectsFlagLists (cc : Cond) (target : Addr) : RespectsFlagLists (callOn cc target) :=
  .of_condition (by cases cc <;> rfl) (by cases cc <;> rfl) (exec_callOn cc target) fun b => callIf_setFlags b target

theorem returnOn_respectsFlagLists (cc : Cond) : RespectsFlagLists (returnOn cc) :=
  .of_condition (by cases cc <;> rfl) (by cases cc <;> rfl) (exec_returnOn cc) returnIf_setFlags

/-- MOV in every form but MOV M,M, which has no next state (R80, log 14). -/
theorem mov_respectsFlagLists (dst src : Operand8) : RespectsFlagLists (.mov dst src) := by
  by_cases hm : dst = .m ∧ src = .m
  · obtain ⟨rfl, rfl⟩ := hm
    intro s t g _ h
    cases h
  · have hi : ∀ s, exec (.mov dst src) s = .next (writeOperand dst (readOperand src s).1 (readOperand src s).2) := by
      intro s
      simp only [exec, execMov]
      split
      · exact absurd ⟨rfl, rfl⟩ hm
      · rfl
    exact .of_completes hi fun s g _ => by simp [flagsWritten]

/-- PUSH reads the flags for PSW alone (R200). -/
theorem push_respectsFlagLists (rp : StackPair) : RespectsFlagLists (.push rp) := by
  refine .of_completes (fun _ => rfl) fun s g hg => ?_
  by_cases hp : rp = .psw
  · subst hp
    have hflags : s.flags = g := eq_of_agreeOn_all hg
    rw [setFlags_eq_self hflags]
    exact (setFlags_eq_self (by simpa [flagsWritten] using hflags)).symm
  · simp [readStackPair_setFlags hp, flagsWritten]

/-- POP writes the flags for PSW alone (R201). -/
theorem pop_respectsFlagLists (rp : StackPair) : RespectsFlagLists (.pop rp) := by
  refine .of_completes (fun _ => rfl) fun s g _ => ?_
  by_cases hp : rp = .psw
  · subst hp
    simp [writeStackPair_psw_setFlags, flagsWritten]
  · simp [writeStackPair_setFlags hp, flagsWritten, hp]

/-- Every instruction respects its lists of flags (R30): the cases are the rows of its table. -/
theorem respectsFlagLists (i : Instr) : RespectsFlagLists i := by
  cases i with
  -- No flag is read or written.
  | mov dst src => exact mov_respectsFlagLists dst src
  | mvi _ _ | lxi _ _ | lda _ | sta _ | lhld _ | shld _ | ldax _ | stax _ | xchg
  | inx _ | dcx _ | cma | jmp _ | call _ | ret | rst _ | pchl | xthl | sphl
  | inPort _ | outPort _ | ei | di | hlt | nop =>
    exact .of_completes (fun _ => rfl) fun s g _ => by simp [flagsWritten]
  -- All five flags are written, from operands that are no flags.
  | add _ | adi _ | sub _ | sui _ | ana _ | ani _ | xra _ | xri _ | ora _ | ori _ | cmp _ | cpi _ =>
    exact .of_completes (fun _ => rfl) fun s g _ => by simp [flagsWritten]
  -- All five flags are written, and CY (for DAA, AC too) is an operand.
  | adc _ | aci _ | sbb _ | sbi _ =>
    refine .of_completes (fun _ => rfl) fun s g hg => ?_
    have hcy : s.flags.cy = g.cy := hg .cy (by simp [flagsRead])
    simp [hcy, flagsWritten]
  | daa =>
    refine .of_completes (fun _ => rfl) fun s g hg => ?_
    have hcy : s.flags.cy = g.cy := hg .cy (by simp [flagsRead])
    have hac : s.flags.ac = g.ac := hg .ac (by simp [flagsRead])
    simp [hcy, hac, flagsWritten]
  -- CY is kept and the other four are written.
  | inr _ | dcr _ => exact .of_completes (fun _ => rfl) fun s g _ => by simp [flagsWritten]
  -- CY alone is written.
  | dad _ | rlc | rrc | stc => exact .of_completes (fun _ => rfl) fun s g _ => by simp [rotateTo, flagsWritten]
  | ral | rar | cmc =>
    refine .of_completes (fun _ => rfl) fun s g hg => ?_
    have hcy : s.flags.cy = g.cy := hg .cy (by simp [flagsRead])
    simp [hcy, rotateTo, flagsWritten]
  -- The conditional instructions read S, Z, P and CY.
  | jnz target => exact jumpOn_respectsFlagLists .nz target
  | jz target => exact jumpOn_respectsFlagLists .z target
  | jnc target => exact jumpOn_respectsFlagLists .nc target
  | jc target => exact jumpOn_respectsFlagLists .c target
  | jpo target => exact jumpOn_respectsFlagLists .po target
  | jpe target => exact jumpOn_respectsFlagLists .pe target
  | jp target => exact jumpOn_respectsFlagLists .p target
  | jm target => exact jumpOn_respectsFlagLists .m target
  | cnz target => exact callOn_respectsFlagLists .nz target
  | cz target => exact callOn_respectsFlagLists .z target
  | cnc target => exact callOn_respectsFlagLists .nc target
  | cc target => exact callOn_respectsFlagLists .c target
  | cpo target => exact callOn_respectsFlagLists .po target
  | cpe target => exact callOn_respectsFlagLists .pe target
  | cp target => exact callOn_respectsFlagLists .p target
  | cm target => exact callOn_respectsFlagLists .m target
  | rnz => exact returnOn_respectsFlagLists .nz
  | rz => exact returnOn_respectsFlagLists .z
  | rnc => exact returnOn_respectsFlagLists .nc
  | rc => exact returnOn_respectsFlagLists .c
  | rpo => exact returnOn_respectsFlagLists .po
  | rpe => exact returnOn_respectsFlagLists .pe
  | rp => exact returnOn_respectsFlagLists .p
  | rm => exact returnOn_respectsFlagLists .m
  -- PSW holds the flags.
  | push rp => exact push_respectsFlagLists rp
  | pop rp => exact pop_respectsFlagLists rp

/-! The four parts of the statement. -/

/-- A flag not listed as written is kept: the law for an instruction started with the flags it has. -/
theorem exec_keeps_unwritten_flag {i : Instr} {s t : State} (h : exec i s = .next t) {n : FlagName}
    (hn : n ∉ flagsWritten i) : flagOf t.flags n = flagOf s.flags n := by
  have hrun := respectsFlagLists i s t s.flags (fun _ _ => rfl) h
  rw [setFlags_self, h] at hrun
  have ht : t.flags = mergeFlags (flagsWritten i) t.flags s.flags := congrArg State.flags (Host.Outcome.next.inj hrun)
  rw [ht, flagOf_mergeFlags, if_neg hn]

theorem exec_logical_clears_cy {r : Operand8} {v : Byte} {i : Instr} {s t : State}
    (hi : i ∈ [Instr.ana r, .ani v, .xra r, .xri v, .ora r, .ori v]) (h : exec i s = .next t) : t.flags.cy = false := by
  simp only [List.mem_cons, List.not_mem_nil, or_false] at hi
  rcases hi with rfl | rfl | rfl | rfl | rfl | rfl <;> cases h <;> exact logicToA_flags_cy ..

theorem exec_pop_psw_flags (s : State) :
    ∃ t, exec (.pop .psw) s = .next t ∧ t.flags = flagsFromByte (memRead s.sp s).1 :=
  ⟨_, rfl, by simp [writeStackPair_psw_flags, pop16]⟩

/-- Two runs whose flags agree where the instruction reads them end alike but for flags it does not write. -/
theorem exec_depends_on_read_flags_only {i : Instr} {s t : State} {f g : Flags} (hfg : agreeOn (flagsRead i) f g)
    (h : exec i (s.setFlags f) = .next t) :
    ∃ g', exec i (s.setFlags g) = .next (t.setFlags g') ∧ agreeOn (flagsWritten i) t.flags g' :=
  ⟨_, respectsFlagLists i (s.setFlags f) t g hfg h, fun n hn => by rw [flagOf_mergeFlags, if_pos hn]⟩

/-- Settles O48: every instruction respects its lists of flags, and the rules of the logical instructions and POP PSW. -/
theorem flagsChangeOnlyAsListed : Obligations.FlagsChangeOnlyAsListed :=
  ⟨fun _ _ _ h _ => exec_keeps_unwritten_flag h, fun _ _ _ _ _ => exec_logical_clears_cy, exec_pop_psw_flags,
    fun _ _ _ _ _ => exec_depends_on_read_flags_only⟩

end Sys2Proof.FlagRules
end

section
/-! SUPPORT. The two byte accesses of a push and of a pop, in the order of R45 and R46, over every kind of memory. -/

namespace Sys2Proof.StackOrder

open Sys2Proof.Machine Sys2Proof.Config Sys2Proof.Spec

/-- The write at SP-2 acts on the state the write at SP-1 left (R45). -/
theorem push16_eq_writes_high_then_low (v : Addr) (s : State) :
    push16 v s = { memWrite (s.sp - 2) (lowByte v) (memWrite (s.sp - 1) (highByte v) s) with sp := s.sp - 2 } := rfl

/-- The read at SP+1 acts on the state the read at SP left, and its byte is the high one (R46). -/
theorem pop16_eq_of_reads_low_then_high {s s1 s2 : State} {lo hi : Byte} (hlo : memRead s.sp s = (lo, s1))
    (hhi : memRead (s.sp + 1) s1 = (hi, s2)) : pop16 s = (joinBytes hi lo, { s2 with sp := s.sp + 2 }) := by
  simp only [pop16, hlo, hhi, State.setSp]

/-- Settles O33: the accesses in their order, and a pop's reads store nothing. -/
theorem pushAndPopByteOrder : Obligations.PushAndPopByteOrder := fun v s =>
  ⟨push16_eq_writes_high_then_low v s, _, _, _, _, rfl, rfl, pop16_eq_of_reads_low_then_high rfl rfl, pop16_mem s⟩

end Sys2Proof.StackOrder
end

section
/-! SUPPORT. The length of an instruction: `decode` consumes what the form of the opcode says, and the forms are as long as
R63 lists their opcodes. -/

namespace Sys2Proof.OpcodeLength

open Sys2Proof.Machine Sys2Proof.Spec

/-- Decoding consumes the opcode and the operand bytes its form takes, whatever these are (R60). -/
theorem decode_consumes_formLength {op : Byte} {bytes rest : List Byte} {i : Instr}
    (h : decode (op :: bytes) = .ok (i, rest)) :
    (op :: bytes).length = rest.length + (decodeOpcode op).length := by
  obtain ⟨hform, rfl⟩ | ⟨f, b2, hform, -, rfl⟩ | ⟨f, b2, b3, hform, -, rfl⟩ := decode_cases h <;>
    simp [hform, OpForm.length]

/-- The opcode table against the two lists of R63, row by row; an unused opcode stands in neither list. -/
theorem formLength_eq_listed : ∀ op : Byte,
    (decodeOpcode op).length = if op ∈ threeByteOpcodes then 3 else if op ∈ twoByteOpcodes then 2 else 1 := by
  decide

/-- Settles O3: what decoding consumes is the length of the opcode's form, and that is the listed length. -/
theorem lengthIsDecidedByOpcode : Obligations.LengthIsDecidedByOpcode := by
  intro op bytes rest i h
  rw [decode_consumes_formLength h, formLength_eq_listed]

end Sys2Proof.OpcodeLength
end

section
/-! SUPPORT. The data transfers: what the named pairs hold after a word is loaded byte by byte, the forms of the transfer
opcodes, and the load that LDA and LDAX share. -/

namespace Sys2Proof.DataTransfer

open Sys2Proof.Machine Sys2Proof.Spec

/-! A pair loaded with two bytes: the high one goes to its left-named register (R11). -/

theorem setBc_joinBytes (s : State) (hi lo : Byte) : s.setBc (joinBytes hi lo) = { s with b := hi, c := lo } := by
  simp [State.setBc, State.setB, State.setC]

theorem setDe_joinBytes (s : State) (hi lo : Byte) : s.setDe (joinBytes hi lo) = { s with d := hi, e := lo } := by
  simp [State.setDe, State.setD, State.setE]

theorem setHl_joinBytes (s : State) (hi lo : Byte) : s.setHl (joinBytes hi lo) = { s with h := hi, l := lo } := by
  simp [State.setHl, State.setH, State.setL]

/-! The immediate loads. -/

theorem decodeOpcode_mvi (dst : Operand8) : decodeOpcode (opcodeOf 0b00 dst.code 0b110) = .takesByte (.mvi dst) := by
  simp [decodeOpcode, decodeGroup0]

theorem decodeOpcode_lxi (rp : RegPair) : decodeOpcode (opcodeOf 0b00 (rp.code ++ 0#1) 0b001) = .takesWord (.lxi rp) := by
  cases rp <;> rfl

theorem exec_mvi (dst : Operand8) (imm : Byte) (s : State) : exec (.mvi dst imm) s = .next (writeOperand dst imm s) := rfl

theorem exec_lxi (rp : RegPair) (imm : Addr) (s : State) : exec (.lxi rp imm) s = .next (writePair rp imm s) := rfl

/-- Settles O15: the opcode's field names the destination, and the word LXI loads is taken apart as it was joined. -/
theorem immediateLoads : Obligations.ImmediateLoads := by
  intro dst rp b2 b3 s rest
  refine ⟨decode_takesByte (decodeOpcode_mvi dst) b2 rest, exec_mvi dst b2 s,
    decode_takesWord (decodeOpcode_lxi rp) b2 b3 rest, ?_⟩
  rw [exec_lxi]
  cases rp with
  | bc => simp only [writePair, setBc_joinBytes]
  | de => simp only [writePair, setDe_joinBytes]
  | hl => simp only [writePair, setHl_joinBytes]
  | sp => rfl

/-! The loads and stores of A: LDAX and STAX are LDA and STA at the address their pair holds (R87, R88). -/

theorem exec_lda_of_memRead {addr : Addr} {s t : State} {v : Byte} (h : memRead addr s = (v, t)) :
    exec (.lda addr) s = .next { t with a := v } := by
  simp only [exec, execLda, h, State.setA]

theorem exec_sta (addr : Addr) (s : State) : exec (.sta addr) s = .next (memWrite addr s.a s) := rfl

theorem exec_ldax_eq_lda (rp : IndexPair) (s : State) : exec (.ldax rp) s = exec (.lda (indexAddr rp s)) s := rfl

theorem exec_stax_eq_sta (rp : IndexPair) (s : State) : exec (.stax rp) s = exec (.sta (indexAddr rp s)) s := rfl

/-- LDAX in a state whose pair holds the address that is read. -/
theorem exec_ldax_of_memRead {rp : IndexPair} {addr : Addr} {s t : State} {v : Byte} (h : memRead addr s = (v, t))
    (haddr : addr = indexAddr rp s) : exec (.ldax rp) s = .next { t with a := v } := by
  rw [exec_ldax_eq_lda, ← haddr, exec_lda_of_memRead h]

/-- Settles O16: the eight neighbouring opcodes by their forms, the loads through the one read, the stores through the one
write. -/
theorem accumulatorLoadsAndStores : Obligations.AccumulatorLoadsAndStores := by
  intro b2 b3 s rest
  refine ⟨⟨decode_takesWord rfl b2 b3 rest, decode_takesWord rfl b2 b3 rest, decode_bare rfl rest, decode_bare rfl rest,
      decode_bare rfl rest, decode_bare rfl rest, decode_takesWord rfl b2 b3 rest, decode_takesWord rfl b2 b3 rest⟩,
    fun addr v t hread => ⟨exec_lda_of_memRead hread, ?ldaxBc, ?ldaxDe⟩, fun addr => exec_sta addr s, ?staxBc, ?staxDe⟩
  case ldaxBc => exact exec_ldax_of_memRead (rp := .bc) hread
  case ldaxDe => exact exec_ldax_of_memRead (rp := .de) hread
  case staxBc => exact exec_stax_eq_sta .bc s
  case staxDe => exact exec_stax_eq_sta .de s

/-! The exchange and the moves from HL. -/

theorem exec_xchg (s : State) : exec .xchg s = .next ((s.setHl s.de).setDe s.hl) := rfl

/-- Settles O18: XCHG's two loads take their words from the state before it, so that each pair gets the other's bytes; the
other three set one field or none. -/
theorem xchgPchlSphlNopEffects : Obligations.XchgPchlSphlNopEffects := by
  refine ⟨fun rest => ⟨decode_bare rfl rest, decode_bare rfl rest, decode_bare rfl rest, decode_bare rfl rest⟩,
    fun s => ⟨?xchg, ?pchl, ?sphl, ?nop⟩⟩
  case xchg => rw [exec_xchg, State.de, State.hl, setHl_joinBytes, setDe_joinBytes]
  case pchl => rfl
  case sphl => rfl
  case nop => rfl

end Sys2Proof.DataTransfer
end

section
/-! SUPPORT. The addition of 41_arithmetic.md: the flags of a result in the terms of R20 to R23, the sum of `add8`, the
instructions that leave it in A, INR, and the sum of two pairs that DAD leaves in HL. -/

namespace Sys2Proof.Addition

open Sys2Proof.Machine Sys2Proof.Spec

/-! S, Z and P of a result. -/

/-- The model counts the bits along the list of their positions, the statements by the size of a set (R23). -/
theorem onesCount_eq_card (v : Byte) :
    onesCount v = (Finset.univ.filter fun k : Fin 8 => v.getLsbD k = true).card := by
  have hset : (Finset.univ.filter fun k : Fin 8 => v.getLsbD k = true).card =
      ((List.finRange 8).filter fun k : Fin 8 => decide (v.getLsbD k = true)).length := rfl
  rw [hset, onesCount, ← List.map_coe_finRange_eq_range, List.countP_map, List.countP_eq_length_filter]
  simp only [Bool.decide_eq_true, Function.comp_def]

theorem parity_eq_true_iff (v : Byte) :
    parity v = true ↔ Even (Finset.univ.filter fun k : Fin 8 => v.getLsbD k = true).card := by
  rw [← onesCount_eq_card, Nat.even_iff, parity, beq_iff_eq]

/-- Whatever AC and CY are, `flagsOf` takes S, Z and P from the result (R25). -/
theorem szpOf_flagsOf (x : Byte) (ac cy : Bool) : SzpOf x (flagsOf x ac cy) := by
  refine ⟨?sign, ?zero, parity_eq_true_iff x⟩
  case sign => simp [BitVec.msb_eq_decide]
  case zero => simp [BitVec.toNat_eq]

/-! The adder and the instructions that use it. -/

/-- The adder gives the sum and its five flags (R100). -/
theorem add8_addResult (a v : Byte) (cin : Bool) : AddResult a v cin (add8 a v cin).1 (add8 a v cin).2 := by
  rw [add8_eq]
  exact ⟨BitVec.toNat_ofNat .., decide_eq_true_iff, decide_eq_true_iff, szpOf_flagsOf ..⟩

/-- An addition to A ends with the sum in A, its flags, and every other field as `addToA` found it. -/
theorem addToA_eq (v : Byte) (cin : Bool) (s : State) :
    addToA v cin s = { s with a := (add8 s.a v cin).1, flags := (add8 s.a v cin).2 } := rfl

theorem exec_add (r : Operand8) (s : State) :
    exec (.add r) s = .next (addToA (readOperand r s).1 false (readOperand r s).2) := rfl

theorem exec_adi (v : Byte) (s : State) : exec (.adi v) s = .next (addToA v false s) := rfl

theorem exec_adc (r : Operand8) (s : State) :
    exec (.adc r) s = .next (addToA (readOperand r s).1 s.flags.cy (readOperand r s).2) := rfl

theorem exec_aci (v : Byte) (s : State) : exec (.aci v) s = .next (addToA v s.flags.cy s) := rfl

/-- What ADD, ADI, ADC and ACI share: in `t`, where the operand has been read, A is still that of `s`, and the sum goes
to A. -/
theorem exec_addResult_of_addToA {i : Instr} {s t : State} {v : Byte} {cin : Bool}
    (hexec : exec i s = .next (addToA v cin t)) (ha : t.a = s.a) :
    ∃ x f, exec i s = .next { t with a := x, flags := f } ∧ AddResult s.a v cin x f := by
  rw [addToA_eq, ha] at hexec
  exact ⟨_, _, hexec, add8_addResult s.a v cin⟩

/-- INR writes the sum with 1 back to its operand, and puts the CY it started with among the flags of that sum (R111). -/
theorem exec_inr (r : Operand8) (s : State) :
    exec (.inr r) s = .next (writeOperand r (add8 (readOperand r s).1 1 false).1
      { (readOperand r s).2 with flags := { (add8 (readOperand r s).1 1 false).2 with cy := s.flags.cy } }) := rfl

/-! The opcodes that name a register or M. -/

theorem decodeOpcode_add (r : Operand8) : decodeOpcode (opcodeOf 0b10 0b000 r.code) = .bare (.add r) := by
  simp [decodeOpcode, decodeGroup2]

theorem decodeOpcode_adc (r : Operand8) : decodeOpcode (opcodeOf 0b10 0b001 r.code) = .bare (.adc r) := by
  simp [decodeOpcode, decodeGroup2]

theorem decodeOpcode_inr (r : Operand8) : decodeOpcode (opcodeOf 0b00 r.code 0b100) = .bare (.inr r) := by
  simp [decodeOpcode, decodeGroup0]

/-- Settles O19: the five opcodes by their forms; the four additions to A by the one sum they share, which reading the
operand leaves A for; INR by the same adder. -/
theorem additionSetsSumAndFlags : Obligations.AdditionSetsSumAndFlags := by
  intro r v s rest
  refine ⟨⟨decode_bare (decodeOpcode_add r) rest, decode_takesByte rfl v rest, decode_bare (decodeOpcode_adc r) rest,
    decode_takesByte rfl v rest, decode_bare (decodeOpcode_inr r) rest⟩, ?add, ?adi, ?adc, ?aci, ?inr⟩
  case add => exact exec_addResult_of_addToA (exec_add r s) (readOperand_a r s)
  case adi => exact exec_addResult_of_addToA (exec_adi v s) rfl
  case adc => exact exec_addResult_of_addToA (exec_adc r s) (readOperand_a r s)
  case aci => exact exec_addResult_of_addToA (exec_aci v s) rfl
  case inr => exact ⟨_, _, exec_inr r s, add8_addResult (readOperand r s).1 1 false⟩

/-! DAD. -/

/-- The two bytes of a word are its digits to the base 256 (R11). -/
theorem highByte_lowByte_toNat (w : Addr) : (highByte w).toNat * 256 + (lowByte w).toNat = w.toNat := by
  rw [← joinBytes_toNat, joinBytes_high_low]

theorem decodeOpcode_dad (rp : RegPair) : decodeOpcode (opcodeOf 0b00 (rp.code ++ 1#1) 0b001) = .bare (.dad rp) := by
  cases rp <;> rfl

/-- DAD loads H and L with the bytes of the sum and replaces CY alone among the flags (R115). -/
theorem exec_dad (rp : RegPair) (s : State) :
    exec (.dad rp) s = .next { s with
      h := highByte (BitVec.ofNat 16 ((readPair .hl s).toNat + (readPair rp s).toNat))
      l := lowByte (BitVec.ofNat 16 ((readPair .hl s).toNat + (readPair rp s).toNat))
      flags := { s.flags with cy := decide (65535 < (readPair .hl s).toNat + (readPair rp s).toNat) } } := rfl

/-- Settles O23: H and L hold the bytes of the 16-bit sum, and CY says whether the sum is longer. -/
theorem dadAddsToHl : Obligations.DadAddsToHl := by
  intro rp s rest
  refine ⟨decode_bare (decodeOpcode_dad rp) rest, _, _, _, exec_dad rp s, ?sum, decide_eq_true_iff⟩
  case sum => rw [highByte_lowByte_toNat, BitVec.toNat_ofNat]

end Sys2Proof.Addition
end

section
/-! SUPPORT. The bitwise instructions, rotates and complements of 42_logical.md: the one flag computation the former share,
and the bits of A after a bit is shifted in at either end. -/

namespace Sys2Proof.Logical

open Sys2Proof.Machine Sys2Proof.Spec Sys2Proof.Addition

/-! The bitwise instructions. -/

theorem exec_ani (v : Byte) (s : State) : exec (.ani v) s = .next (logicToA (s.a &&& v) false s) := rfl

theorem exec_xra (r : Operand8) (s : State) :
    exec (.xra r) s = .next (logicToA (s.a ^^^ (readOperand r s).1) false (readOperand r s).2) := rfl

theorem exec_xri (v : Byte) (s : State) : exec (.xri v) s = .next (logicToA (s.a ^^^ v) false s) := rfl

theorem exec_ora (r : Operand8) (s : State) :
    exec (.ora r) s = .next (logicToA (s.a ||| (readOperand r s).1) false (readOperand r s).2) := rfl

theorem exec_ori (v : Byte) (s : State) : exec (.ori v) s = .next (logicToA (s.a ||| v) false s) := rfl

/-- `Logic(res, ac)` ends with the result in A, its flags, and every other field as it found it (R130). -/
theorem logicToA_eq (res : Byte) (ac : Bool) (s : State) :
    logicToA res ac s = { s with a := res, flags := flagsOf res ac false } := rfl

/-- What all the bitwise instructions share, ANA included: AC is the one given, CY is 0, and S, Z and P describe the result
that goes to A. -/
theorem exec_logic_of_logicToA {i : Instr} {s t : State} {res : Byte} {ac : Bool}
    (hexec : exec i s = .next (logicToA res ac t)) :
    ∃ f, exec i s = .next { t with a := res, flags := f } ∧ f.ac = ac ∧ f.cy = false ∧ SzpOf res f := by
  rw [logicToA_eq] at hexec
  exact ⟨_, hexec, rfl, rfl, szpOf_flagsOf res ac false⟩

theorem decodeOpcode_xra (r : Operand8) : decodeOpcode (opcodeOf 0b10 0b101 r.code) = .bare (.xra r) := by
  simp [decodeOpcode, decodeGroup2]

theorem decodeOpcode_ora (r : Operand8) : decodeOpcode (opcodeOf 0b10 0b110 r.code) = .bare (.ora r) := by
  simp [decodeOpcode, decodeGroup2]

/-- Settles O26: the five opcodes by their forms, and each of the five results through the one operation that sets A and the
flags, with AC = 0. -/
theorem bitwiseInstructionsClearCarries : Obligations.BitwiseInstructionsClearCarries := by
  intro r v s rest
  refine ⟨⟨decode_takesByte rfl v rest, decode_bare (decodeOpcode_xra r) rest, decode_takesByte rfl v rest,
    decode_bare (decodeOpcode_ora r) rest, decode_takesByte rfl v rest⟩, ?ani, ?xra, ?xri, ?ora, ?ori⟩
  case ani => exact exec_logic_of_logicToA (exec_ani v s)
  case xra => exact exec_logic_of_logicToA (exec_xra r s)
  case xri => exact exec_logic_of_logicToA (exec_xri v s)
  case ora => exact exec_logic_of_logicToA (exec_ora r s)
  case ori => exact exec_logic_of_logicToA (exec_ori v s)

/-! A shift by one with a bit entering at the free end. -/

/-- `v[6:0] : b`, what RLC and RAL leave in A. -/
def shiftInLow (v : Byte) (b : Bool) : Byte := (v <<< 1) ||| bitByte b

/-- `b : v[7:1]`, what RRC and RAR leave in A. -/
def shiftInHigh (b : Bool) (v : Byte) : Byte := (bitByte b <<< 7) ||| (v >>> 1)

theorem getLsbD_bitByte (b : Bool) (k : Nat) : (bitByte b).getLsbD k = (decide (k = 0) && b) := by
  cases k <;> simp [bitByte]

theorem shiftInLow_bit_zero (v : Byte) (b : Bool) : (shiftInLow v b).getLsbD 0 = b := by
  rw [shiftInLow, BitVec.getLsbD_or, BitVec.getLsbD_shiftLeft, getLsbD_bitByte]
  simp

theorem shiftInLow_bit_succ (v : Byte) (b : Bool) {k : Nat} (hk : k < 7) :
    (shiftInLow v b).getLsbD (k + 1) = v.getLsbD k := by
  have hlt : k + 1 < 8 := by omega
  rw [shiftInLow, BitVec.getLsbD_or, BitVec.getLsbD_shiftLeft, getLsbD_bitByte]
  simp [hlt]

theorem shiftInHigh_bit_seven (b : Bool) (v : Byte) : (shiftInHigh b v).getLsbD 7 = b := by
  rw [shiftInHigh, BitVec.getLsbD_or, BitVec.getLsbD_shiftLeft, getLsbD_bitByte]
  simp

theorem shiftInHigh_bit_of_lt (b : Bool) (v : Byte) {k : Nat} (hk : k < 7) :
    (shiftInHigh b v).getLsbD k = v.getLsbD (k + 1) := by
  simp [shiftInHigh, hk, Nat.add_comm]

/-! The rotates: CY takes the bit that leaves A; RLC and RRC let that bit in again, RAL and RAR the old CY (R139 to R142). -/

theorem exec_rlc (s : State) :
    exec .rlc s = .next (rotateTo (shiftInLow s.a (s.a.getLsbD 7)) (s.a.getLsbD 7) s) := rfl

theorem exec_rrc (s : State) :
    exec .rrc s = .next (rotateTo (shiftInHigh (s.a.getLsbD 0) s.a) (s.a.getLsbD 0) s) := rfl

theorem exec_ral (s : State) :
    exec .ral s = .next (rotateTo (shiftInLow s.a s.flags.cy) (s.a.getLsbD 7) s) := rfl

theorem exec_rar (s : State) :
    exec .rar s = .next (rotateTo (shiftInHigh s.flags.cy s.a) (s.a.getLsbD 0) s) := rfl

/-- A rotate writes A and CY alone. -/
theorem rotateTo_eq (v : Byte) (cy : Bool) (s : State) :
    rotateTo v cy s = { s with a := v, flags := { s.flags with cy := cy } } := rfl

/-- RLC and RAL bit by bit, `b` being the bit that enters. -/
theorem exec_bits_of_shiftInLow {i : Instr} {s : State} {b cy : Bool}
    (hexec : exec i s = .next (rotateTo (shiftInLow s.a b) cy s)) :
    ∃ x, exec i s = .next { s with a := x, flags := { s.flags with cy := cy } } ∧
      x.getLsbD 0 = b ∧ ∀ k, k < 7 → x.getLsbD (k + 1) = s.a.getLsbD k := by
  rw [rotateTo_eq] at hexec
  exact ⟨_, hexec, shiftInLow_bit_zero s.a b, fun _ => shiftInLow_bit_succ s.a b⟩

/-- RRC and RAR bit by bit, `b` being the bit that enters. -/
theorem exec_bits_of_shiftInHigh {i : Instr} {s : State} {b cy : Bool}
    (hexec : exec i s = .next (rotateTo (shiftInHigh b s.a) cy s)) :
    ∃ x, exec i s = .next { s with a := x, flags := { s.flags with cy := cy } } ∧
      x.getLsbD 7 = b ∧ ∀ k, k < 7 → x.getLsbD k = s.a.getLsbD (k + 1) := by
  rw [rotateTo_eq] at hexec
  exact ⟨_, hexec, shiftInHigh_bit_seven b s.a, fun _ => shiftInHigh_bit_of_lt b s.a⟩

/-! The complements and STC. -/

theorem exec_cma (s : State) : exec .cma s = .next { s with a := ~~~s.a } := rfl

theorem exec_cmc (s : State) : exec .cmc s = .next { s with flags := { s.flags with cy := !s.flags.cy } } := rfl

theorem exec_stc (s : State) : exec .stc s = .next { s with flags := { s.flags with cy := true } } := rfl

/-- Settles O28: the seven opcodes by their forms; each rotate by the end at which its bit enters; CMA by the bits of the
complement; CMC and STC replace CY alone. -/
theorem rotatesAndComplementsBitByBit : Obligations.RotatesAndComplementsBitByBit := by
  refine ⟨fun rest => ⟨decode_bare rfl rest, decode_bare rfl rest, decode_bare rfl rest, decode_bare rfl rest,
    decode_bare rfl rest, decode_bare rfl rest, decode_bare rfl rest⟩,
    fun s => ⟨?rlc, ?rrc, ?ral, ?rar, ?cma, exec_cmc s, exec_stc s⟩⟩
  case rlc => exact exec_bits_of_shiftInLow (exec_rlc s)
  case rrc => exact exec_bits_of_shiftInHigh (exec_rrc s)
  case ral => exact exec_bits_of_shiftInLow (exec_ral s)
  case rar => exact exec_bits_of_shiftInHigh (exec_rar s)
  case cma => exact ⟨_, exec_cma s, fun k hk => by rw [BitVec.getLsbD_not, decide_eq_true hk, Bool.true_and]⟩

end Sys2Proof.Logical
end

section
/-! SUPPORT. The control transfers of 43_control_transfer.md: the two outcomes that every conditional instruction has, whatever
it does when taken, and the opcodes that hold a condition or a restart number. -/

namespace Sys2Proof.ControlTransfer

open Sys2Proof.Machine Sys2Proof.Spec Sys2Proof.FlagRules

/-! The two outcomes of a condition. -/

theorem condHolds_eq_true_iff (cc : Cond) (f : Flags) : condHolds cc f = true ↔ CondTrue cc f := by
  cases cc <;> simp [condHolds, CondTrue]

/-- An instruction that is taken or passed over as its condition says goes one way where the flag has the value tested, and
leaves the state alone where it has not (R162, R172, R182). -/
theorem exec_taken_or_not {i : Instr} {cc : Cond} {s taken : State}
    (hexec : exec i s = .next (if condHolds cc s.flags then taken else s)) :
    (CondTrue cc s.flags → exec i s = .next taken) ∧ (¬ CondTrue cc s.flags → exec i s = .next s) := by
  rw [← condHolds_eq_true_iff]
  exact ⟨fun htrue => by rw [hexec, if_pos htrue], fun hfalse => by rw [hexec, if_neg hfalse]⟩

/-! What a transfer does when it is taken: the target of a jump is in the instruction or, for a return, on the stack, and a
call pushes the PC first. -/

theorem callTo_eq (target : Addr) (s : State) : callTo target s = { push16 s.pc s with pc := target } := rfl

theorem returnTo_eq (s : State) : returnTo s = { (pop16 s).2 with pc := (pop16 s).1 } := rfl

theorem exec_jmp (target : Addr) (s : State) : exec (.jmp target) s = .next { s with pc := target } := rfl

theorem exec_ret (s : State) : exec .ret s = .next (returnTo s) := rfl

theorem exec_rst (n : BitVec 3) (s : State) : exec (.rst n) s = .next (callTo (restartAddr n) s) := rfl

/-- The restart addresses are 0, 8, up to 56: the shift loses no bit (R191). -/
theorem restartAddr_toNat (n : BitVec 3) : (restartAddr n).toNat = 8 * n.toNat := by
  have hn := n.isLt
  rw [restartAddr, BitVec.toNat_shiftLeft, BitVec.toNat_setWidth, Nat.shiftLeft_eq]
  omega

/-! The opcodes with a condition or a restart number in bits 5:3. -/

theorem decodeOpcode_jumpOn (cc : Cond) : decodeOpcode (opcodeOf 0b11 cc.code 0b010) = .takesWord (jumpOn cc) := by
  cases cc <;> rfl

theorem decodeOpcode_callOn (cc : Cond) : decodeOpcode (opcodeOf 0b11 cc.code 0b100) = .takesWord (callOn cc) := by
  cases cc <;> rfl

theorem decodeOpcode_returnOn (cc : Cond) : decodeOpcode (opcodeOf 0b11 cc.code 0b000) = .bare (returnOn cc) := by
  cases cc <;> rfl

theorem decodeOpcode_rst (n : BitVec 3) : decodeOpcode (opcodeOf 0b11 n 0b111) = .bare (.rst n) := by
  simp [decodeOpcode, decodeGroup3]

/-- Settles O30: the forms of the opcodes take both address bytes whatever the condition; then the two outcomes of a jump. -/
theorem jumpsReplaceThePc : Obligations.JumpsReplaceThePc := by
  intro cc b2 b3 s rest
  refine ⟨decode_takesWord rfl b2 b3 rest, decode_takesWord (decodeOpcode_jumpOn cc) b2 b3 rest, fun target => ?_⟩
  exact ⟨exec_jmp target s, exec_taken_or_not (exec_jumpOn cc target s)⟩

/-- Settles O31: the two outcomes of a call, and RST as the call of its restart address. -/
theorem conditionalCallsAndRst : Obligations.ConditionalCallsAndRst := by
  intro cc n b2 b3 s rest
  refine ⟨decode_takesWord (decodeOpcode_callOn cc) b2 b3 rest, decode_bare (decodeOpcode_rst n) rest,
    fun target => ?call, restartAddr n, restartAddr_toNat n, ?rst⟩
  case call =>
    rw [← callTo_eq]
    exact exec_taken_or_not (exec_callOn cc target s)
  case rst => rw [exec_rst, callTo_eq]

/-- Settles O34: RET is the return that a conditional return makes when it is taken. -/
theorem returnsPopThePc : Obligations.ReturnsPopThePc := by
  intro cc s rest
  rw [← returnTo_eq]
  exact ⟨decode_bare rfl rest, decode_bare (decodeOpcode_returnOn cc) rest, exec_ret s,
    exec_taken_or_not (exec_returnOn cc s)⟩

end Sys2Proof.ControlTransfer
end

section
/-! SUPPORT. The two halves of the encoding's round trip (R60, R69): the form of an opcode gives back each instruction that is
encoded with it, and whatever the decoder makes of an opcode is encoded with that opcode. -/

namespace Sys2Proof.Encoding

open Sys2Proof.Machine Sys2Proof.Spec Sys2Proof.DataTransfer Sys2Proof.Addition Sys2Proof.Logical Sys2Proof.ControlTransfer

/-! From the instruction to its bytes and back. -/

theorem decodeOpcode_dcr (r : Operand8) : decodeOpcode (opcodeOf 0b00 r.code 0b101) = .bare (.dcr r) := by
  simp [decodeOpcode, decodeGroup0]

/-- MOV's code for M,M is taken by HLT; every other pair of operands has its own (R67). -/
theorem decodeOpcode_mov {dst src : Operand8} (hne : ¬ (dst = .m ∧ src = .m)) :
    decodeOpcode (opcodeOf 0b01 dst.code src.code) = .bare (.mov dst src) := by
  have hcodes : ¬ (dst.code = 6 ∧ src.code = 6) := by
    rintro ⟨hdst, hsrc⟩
    exact hne ⟨by rw [← Operand8.ofCode_code dst, hdst]; rfl, by rw [← Operand8.ofCode_code src, hsrc]; rfl⟩
  simpa [decodeOpcode, decodeGroup1] using hcodes

theorem wellFormed_mov_iff (dst src : Operand8) : (Instr.mov dst src).wellFormed = true ↔ ¬ (dst = .m ∧ src = .m) := by
  cases dst <;> cases src <;> decide

/-- Settles O1: each instruction by the form of its opcode, which takes as many bytes as the encoding puts after it. -/
theorem decodeOfEncodeIsTheInstruction : Obligations.DecodeOfEncodeIsTheInstruction := by
  intro i rest hwf
  cases i with
  -- An operand field in the opcode.
  | mov dst src => exact decode_bare (decodeOpcode_mov ((wellFormed_mov_iff dst src).mp hwf)) rest
  | inr dst => exact decode_bare (decodeOpcode_inr dst) rest
  | dcr dst => exact decode_bare (decodeOpcode_dcr dst) rest
  | add r | adc r | sub r | sbb r | ana r | xra r | ora r | cmp r =>
    exact decode_bare (by simp [decodeOpcode, decodeGroup2]) rest
  | mvi dst v => exact decode_takesByte (decodeOpcode_mvi dst) v rest
  -- A pair field, or the field of a restart number.
  | lxi p v => exact decode_wordForm (decodeOpcode_lxi p) v rest
  | dad p => exact decode_bare (decodeOpcode_dad p) rest
  | ldax p | stax p | inx p | dcx p | push p | pop p => cases p <;> exact decode_bare rfl rest
  | rst n => exact decode_bare (decodeOpcode_rst n) rest
  -- One opcode each, followed by nothing, by a byte or by a word.
  | xchg | daa | rlc | rrc | ral | rar | cma | cmc | stc | pchl | xthl | sphl | ei | di | hlt | nop
  | ret | rnz | rz | rnc | rc | rpo | rpe | rp | rm => exact decode_bare rfl rest
  | adi v | aci v | sui v | sbi v | ani v | xri v | ori v | cpi v | inPort v | outPort v =>
    exact decode_takesByte rfl v rest
  | lda w | sta w | lhld w | shld w
  | jmp w | jnz w | jz w | jnc w | jc w | jpo w | jpe w | jp w | jm w
  | call w | cnz w | cz w | cnc w | cc w | cpo w | cpe w | cp w | cm w => exact decode_wordForm rfl w rest

/-! From the bytes to the instruction and back. -/

/-- Every instruction a form can stand for is well formed and encoded with the opcode and the bytes that the form takes. -/
def IsEncodedWith (op : Byte) (form : OpForm) : Prop :=
  ∀ (v : Byte) (w : Addr), match form with
    | .unused => True
    | .bare i => encode i = [op] ∧ i.wellFormed = true
    | .takesByte f => encode (f v) = [op, v] ∧ (f v).wellFormed = true
    | .takesWord f => encode (f w) = wordForm op w ∧ (f w).wellFormed = true

theorem bits3_cases : ∀ y : BitVec 3, y = 0 ∨ y = 1 ∨ y = 2 ∨ y = 3 ∨ y = 4 ∨ y = 5 ∨ y = 6 ∨ y = 7 := by decide

/-- The table of group 00, entry by entry. -/
theorem decodeGroup0_isEncodedWith (y z : BitVec 3) : IsEncodedWith (opcodeOf 0 y z) (decodeGroup0 y z) := by
  obtain rfl | rfl | rfl | rfl | rfl | rfl | rfl | rfl := bits3_cases z <;>
    obtain rfl | rfl | rfl | rfl | rfl | rfl | rfl | rfl := bits3_cases y <;> (intro v w; trivial)

theorem decodeGroup1_isEncodedWith (y z : BitVec 3) : IsEncodedWith (opcodeOf 1 y z) (decodeGroup1 y z) := by
  unfold decodeGroup1
  split
  · rename_i h
    obtain ⟨rfl, rfl⟩ := h
    exact fun _ _ => ⟨rfl, rfl⟩
  · rename_i hne
    have hcode : ∀ c, Operand8.ofCode c = .m → c = 6 := by decide
    exact fun _ _ => ⟨by simp [encode], (wellFormed_mov_iff _ _).mpr fun h => hne ⟨hcode y h.1, hcode z h.2⟩⟩

theorem decodeGroup2_isEncodedWith (y z : BitVec 3) : IsEncodedWith (opcodeOf 2 y z) (decodeGroup2 y z) := by
  obtain rfl | rfl | rfl | rfl | rfl | rfl | rfl | rfl := bits3_cases y <;> exact fun _ _ => ⟨by simp [encode], rfl⟩

/-- The table of group 11, entry by entry. -/
theorem decodeGroup3_isEncodedWith (y z : BitVec 3) : IsEncodedWith (opcodeOf 3 y z) (decodeGroup3 y z) := by
  obtain rfl | rfl | rfl | rfl | rfl | rfl | rfl | rfl := bits3_cases z <;>
    obtain rfl | rfl | rfl | rfl | rfl | rfl | rfl | rfl := bits3_cases y <;> (intro v w; trivial)

theorem bits2_cases : ∀ x : BitVec 2, x = 0 ∨ x = 1 ∨ x = 2 ∨ x = 3 := by decide

/-- Whatever the decoder makes of an opcode, in any of its four groups (R61, R68). -/
theorem decodeOpcode_isEncodedWith (op : Byte) : IsEncodedWith op (decodeOpcode op) := by
  have hgroups : IsEncodedWith (opcodeOf (fieldX op) (fieldY op) (fieldZ op)) (decodeOpcode op) := by
    unfold decodeOpcode
    obtain hx | hx | hx | hx := bits2_cases (fieldX op) <;> rw [hx]
    · exact decodeGroup0_isEncodedWith _ _
    · exact decodeGroup1_isEncodedWith _ _
    · exact decodeGroup2_isEncodedWith _ _
    · exact decodeGroup3_isEncodedWith _ _
  rwa [opcodeOf_fields] at hgroups

theorem encode_of_bare {op : Byte} {i : Instr} (h : decodeOpcode op = .bare i) :
    encode i = [op] ∧ i.wellFormed = true := by
  simpa only [h] using decodeOpcode_isEncodedWith op 0 0

theorem encode_of_takesByte {op : Byte} {f : Byte → Instr} (h : decodeOpcode op = .takesByte f) (v : Byte) :
    encode (f v) = [op, v] ∧ (f v).wellFormed = true := by
  simpa only [h] using decodeOpcode_isEncodedWith op v 0

theorem encode_of_takesWord {op : Byte} {f : Addr → Instr} (h : decodeOpcode op = .takesWord f) (w : Addr) :
    encode (f w) = wordForm op w ∧ (f w).wellFormed = true := by
  simpa only [h] using decodeOpcode_isEncodedWith op 0 w

/-- Settles O2: the bytes consumed are the opcode and the operand bytes its form takes, and so is the encoding. -/
theorem encodeOfDecodeIsTheBytes : Obligations.EncodeOfDecodeIsTheBytes := by
  intro bytes rest i h
  cases bytes with
  | nil => cases h
  | cons op tail =>
    obtain ⟨hform, rfl⟩ | ⟨f, b2, hform, rfl, rfl⟩ | ⟨f, b2, b3, hform, rfl, rfl⟩ := decode_cases h
    · obtain ⟨hbytes, hwf⟩ := encode_of_bare hform
      exact ⟨by rw [hbytes]; rfl, hwf⟩
    · obtain ⟨hbytes, hwf⟩ := encode_of_takesByte hform b2
      exact ⟨by rw [hbytes]; rfl, hwf⟩
    · obtain ⟨hbytes, hwf⟩ := encode_of_takesWord hform (joinBytes b3 b2)
      exact ⟨by simp [hbytes, wordForm], hwf⟩

/-! The unused opcodes. -/

/-- Whether a form is that of an opcode with no instruction. -/
def isUnused : OpForm → Bool
  | .unused => true
  | _ => false

theorem isUnused_eq_true_iff (form : OpForm) : isUnused form = true ↔ form = .unused := by
  cases form <;> simp [isUnused]

/-- The opcode table against the list of R70. -/
theorem decodeOpcode_eq_unused_iff (op : Byte) : decodeOpcode op = .unused ↔ op ∈ unusedOpcodes := by
  have htable : ∀ op : Byte, isUnused (decodeOpcode op) = decide (op ∈ unusedOpcodes) := by decide
  rw [← isUnused_eq_true_iff, htable, decide_eq_true_iff]

theorem decode_unused {op : Byte} (h : decodeOpcode op = .unused) (rest : List Byte) :
    decode (op :: rest) = .error (.unusedOpcode op) := by
  simp only [decode, h]

/-- With two bytes after it every opcode that is in use decodes. -/
theorem decode_of_not_unused {op : Byte} (h : decodeOpcode op ≠ .unused) (b2 b3 : Byte) :
    ∃ i rest, decode [op, b2, b3] = .ok (i, rest) := by
  cases hform : decodeOpcode op with
  | unused => exact absurd hform h
  | bare i => exact ⟨_, _, decode_bare hform _⟩
  | takesByte f => exact ⟨_, _, decode_takesByte hform b2 _⟩
  | takesWord f => exact ⟨_, _, decode_takesWord hform b2 b3 _⟩

/-- Settles O4: an opcode is refused when its form is unused, which the table says of the listed ones; any other decodes. -/
theorem twelveOpcodesAreUnused : Obligations.TwelveOpcodesAreUnused := by
  intro op b2 b3
  rw [← decodeOpcode_eq_unused_iff]
  refine ⟨⟨fun hdecode => ?_, fun hform => decode_unused hform _⟩, fun hform => decode_of_not_unused hform b2 b3⟩
  by_contra hform
  obtain ⟨i, rest, hok⟩ := decode_of_not_unused hform b2 b3
  rw [hok] at hdecode
  cases hdecode

/-- Settles O5: each word by the form of its opcode, which the table gives by evaluation. -/
theorem sampleWordsDecode : Obligations.SampleWordsDecode := by
  refine ⟨decode_bare rfl _, decode_takesWord rfl _ _ _, decode_bare rfl _, decode_bare rfl _, decode_bare rfl _,
    decode_takesWord rfl _ _ _, decode_bare rfl _, decode_bare rfl _, decode_takesByte rfl _ _, decode_bare rfl _,
    decode_bare rfl _, decode_bare rfl _, decode_takesByte rfl _ _, decode_bare rfl _, decode_takesByte rfl _ _,
    decode_bare rfl _, decode_bare rfl _, decode_bare rfl _, decode_bare rfl _, decode_takesByte rfl _ _,
    decode_takesWord rfl _ _ _, decode_bare rfl _, decode_bare rfl _, decode_bare rfl _, decode_takesByte rfl _ _,
    decode_bare rfl _⟩

end Sys2Proof.Encoding
end

section
/-! SUPPORT. The accesses to memory, operands and ports: what the platform answers, what RAM stores, what each operand code
names, the layout of the flag byte, and the instructions that are one such access. -/

namespace Sys2Proof.Accesses

open Sys2Proof.Machine Sys2Proof.Config Sys2Proof.Spec Sys2Proof.DataTransfer Sys2Proof.Logical Sys2Proof.ControlTransfer
  Sys2Proof.Encoding

/-! Memory. -/

theorem draw_listed {s : State} {v : Byte} {rest : List Byte} (h : s.busAnswers = v :: rest) :
    draw s = (v, { s with busAnswers := rest }) := by
  simp only [draw, h, State.setBusAnswers]

theorem draw_free {s : State} (h : s.busAnswers = []) :
    draw s = (freeByte s.draws, { s with draws := s.draws + 1 }) := by
  simp only [draw, h, State.setDraws]

theorem storedAt_of_ramAt {s : State} {addr : Addr} (h : ramAt s addr) : storedAt s addr := .inl h

@[simp] theorem ramAt_memWrite (addr other : Addr) (v : Byte) (s : State) :
    ramAt (memWrite addr v s) other ↔ ramAt s other := by simp [ramAt]

theorem absent_or_device_of_not_storedAt {s : State} {addr : Addr} (h : ¬ storedAt s addr) :
    kindAt s.memMap addr = .absent ∨ isDevice s addr := by
  unfold storedAt at h
  unfold isDevice
  cases hkind : kindAt s.memMap addr <;> simp_all

/-- Where no byte is stored the platform answers, and uses up what it answers with (D13). -/
theorem memRead_of_not_storedAt {s : State} {addr : Addr} (h : ¬ storedAt s addr) :
    (memRead addr s).1 = (draw s).1 ∧ (memRead addr s).2.busAnswers = (draw s).2.busAnswers := by
  obtain hkind | hkind := absent_or_device_of_not_storedAt h
  · simp [memRead, hkind]
  · simp [memRead, show kindAt s.memMap addr = .device from hkind]

/-- Settles O10: the frame of a read, its byte over stored bytes and over the platform's, and a read after a write. -/
theorem memoryReadReturnsTheByteThere : Obligations.MemoryReadReturnsTheByteThere := by
  refine ⟨memRead_eq, fun _ _ => memRead_stored, fun addr s v rest hplatform hlisted => ?platform, fun addr s v hram => ?ram⟩
  case platform => rw [(memRead_of_not_storedAt hplatform).1, (memRead_of_not_storedAt hplatform).2, draw_listed hlisted]; simp
  case ram =>
    rw [memRead_stored (storedAt_of_ramAt ((ramAt_memWrite addr addr v s).mpr hram))]
    exact memWrite_byteAt_same v hram

/-- Outside RAM a write changes no byte at all. -/
theorem memWrite_byteAt_of_not_ramAt {s : State} {addr : Addr} (v : Byte) (h : ¬ ramAt s addr) (other : Addr) :
    (memWrite addr v s).byteAt other = s.byteAt other := by
  by_cases hsame : other = addr
  · rw [hsame]; exact memWrite_byteAt_notRam v s h
  · exact memWrite_byteAt_other v s hsame

/-- Settles O11: a write at its own address, at another, outside RAM, and its frame. -/
theorem memoryWriteStoresInRamOnly : Obligations.MemoryWriteStoresInRamOnly := fun addr other v s =>
  ⟨memWrite_byteAt_same v, memWrite_byteAt_other v s, fun h => memWrite_byteAt_of_not_ramAt v h other, memWrite_eq addr v s⟩

/-- Over stored bytes LHLD loads the two bytes and does nothing else (R85). -/
theorem exec_lhld_of_storedAt {addr : Addr} {s : State} (hlo : storedAt s addr) (hhi : storedAt s (addr + 1)) :
    exec (.lhld addr) s = .next { s with h := s.byteAt (addr + 1), l := s.byteAt addr } := by
  simp only [exec, execLhld, memRead_stored hlo, memRead_stored hhi, State.setL, State.setH]

theorem exec_shld (addr : Addr) (s : State) :
    exec (.shld addr) s = .next (memWrite (addr + 1) s.h (memWrite addr s.l s)) := rfl

/-- Two writes one after the other change at most memory and the trace. -/
theorem memWrite_memWrite_eq (addr addr' : Addr) (v v' : Byte) (s : State) :
    memWrite addr' v' (memWrite addr v s) = { s with
      mem := (memWrite addr' v' (memWrite addr v s)).mem, events := (memWrite addr' v' (memWrite addr v s)).events } := by
  rw [memWrite_eq addr', memWrite_eq addr]

theorem ne_add_one (addr : Addr) : addr ≠ addr + 1 := by bv_omega

/-- Settles O17: the two reads of LHLD over stored bytes, and the two writes of SHLD, of which the second leaves what the
first stored. -/
theorem hlLoadAndStore : Obligations.HlLoadAndStore := by
  intro addr s
  refine ⟨⟨_, rfl, fun hlo hhi => Host.Outcome.next.inj (exec_lhld_of_storedAt hlo hhi)⟩, _, exec_shld addr s,
    memWrite_memWrite_eq .., fun hram => ?low, fun hram => ?high, fun other hlow hhigh => ?other⟩
  case low => rw [memWrite_byteAt_other _ _ (ne_add_one addr), memWrite_byteAt_same _ hram]
  case high => exact memWrite_byteAt_same _ ((ramAt_memWrite addr _ _ s).mpr hram)
  case other => rw [memWrite_byteAt_other _ _ hhigh, memWrite_byteAt_other _ _ hlow]

/-! Operands, pairs and the flag byte. -/

/-- Settles O12: the registers and pairs by evaluation; a pair as a number by the digits of the word its bytes make. -/
theorem operandAndPairCodes : Obligations.OperandAndPairCodes := by
  intro s v w
  refine ⟨⟨rfl, rfl, rfl, rfl, rfl, rfl, rfl, rfl, rfl, rfl, rfl, rfl, rfl, rfl, rfl, rfl⟩,
    ⟨joinBytes_toNat s.b s.c, joinBytes_toNat s.d s.e, joinBytes_toNat s.h s.l, rfl, rfl, rfl, rfl,
      joinBytes_toNat s.a (flagByte s.flags)⟩,
    ⟨fun p => readPair_writePair p w s, rfl, rfl, rfl, rfl, rfl, rfl, rfl, rfl⟩, rfl, rfl, rfl, rfl⟩

theorem flagByte_bits (f : Flags) :
    (flagByte f).getLsbD 7 = f.s ∧ (flagByte f).getLsbD 6 = f.z ∧ (flagByte f).getLsbD 5 = false ∧
    (flagByte f).getLsbD 4 = f.ac ∧ (flagByte f).getLsbD 3 = false ∧ (flagByte f).getLsbD 2 = f.p ∧
    (flagByte f).getLsbD 1 = true ∧ (flagByte f).getLsbD 0 = f.cy := by
  obtain ⟨s, z, ac, p, cy⟩ := f
  revert s z ac p cy
  decide

/-- Storing loaded flags keeps the five bits that are flags and forces the other three (R19, D4). -/
theorem flagByte_flagsFromByte : ∀ v : Byte, flagByte (flagsFromByte v) = (v &&& 0xD5) ||| 0x02 := by decide

/-- Settles O13: the eight bits of the flag byte, and the two directions of loading and storing it. -/
theorem flagByteLayout : Obligations.FlagByteLayout := by
  refine ⟨fun f => ?_, flagByte_flagsFromByte⟩
  obtain ⟨h7, h6, h5, h4, h3, h2, h1, h0⟩ := flagByte_bits f
  exact ⟨h7, h6, h5, h4, h3, h2, h1, h0, flagsFromByte_flagByte f⟩

/-! Instructions that are one access, or write one pair or the control bits. -/

theorem exec_mov {dst src : Operand8} (h : ¬ (dst = .m ∧ src = .m)) (s : State) :
    exec (.mov dst src) s = .next (writeOperand dst (readOperand src s).1 (readOperand src s).2) := by
  simp only [exec, execMov]
  split
  · exact absurd ⟨rfl, rfl⟩ h
  · rfl

theorem eq_of_exec_mov {dst src : Operand8} {s t : State} (h : exec (.mov dst src) s = .next t) :
    t = writeOperand dst (readOperand src s).1 (readOperand src s).2 := by
  by_cases hm : dst = .m ∧ src = .m
  · obtain ⟨rfl, rfl⟩ := hm
    cases h
  · rw [exec_mov hm] at h
    exact (Host.Outcome.next.inj h).symm

/-- Settles O14: the code and the effect of every pair of operands but M,M, whose code is HLT's. -/
theorem movCopiesTheOperand : Obligations.MovCopiesTheOperand := fun _ _ s rest =>
  ⟨fun h => ⟨decode_bare (decodeOpcode_mov h) rest, exec_mov h s⟩, decode_bare rfl rest, rfl⟩

theorem exec_inx (rp : RegPair) (s : State) : exec (.inx rp) s = .next (writePair rp (readPair rp s + 1) s) := rfl

theorem exec_dcx (rp : RegPair) (s : State) : exec (.dcx rp) s = .next (writePair rp (readPair rp s - 1) s) := rfl

/-- Settles O22: adding and subtracting one in 16 bits. -/
theorem pairIncrementAndDecrement : Obligations.PairIncrementAndDecrement := by
  intro rp s
  refine ⟨⟨_, exec_inx rp s, BitVec.toNat_add _ _⟩, _, exec_dcx rp s, ?_⟩
  rw [BitVec.toNat_sub, Nat.add_comm]
  rfl

theorem auxAna_eq_true_iff (mode : AuxAna) (a v : Byte) :
    auxAna mode a v = true ↔ mode = .orBit3 ∧ (a.getLsbD 3 = true ∨ v.getLsbD 3 = true) := by
  cases mode <;> simp [auxAna]

theorem exec_ana (r : Operand8) (s : State) :
    exec (.ana r) s = .next (logicToA (s.a &&& (readOperand r s).1) (auxAna s.params.auxAna s.a (readOperand r s).1)
      (readOperand r s).2) := rfl

/-- Settles O27: ANA through the operation all bitwise instructions share, with AC by the parameter. -/
theorem anaSetsAuxiliaryCarryByParameter : Obligations.AnaSetsAuxiliaryCarryByParameter := by
  intro r s
  obtain ⟨f, hexec, hac, hcy, hszp⟩ := exec_logic_of_logicToA (exec_ana r s)
  exact ⟨f, hexec, hcy, hszp, by rw [hac, auxAna_eq_true_iff]⟩

/-- Settles O29: what each condition tests, and the eight codes by evaluation. -/
theorem conditionCodesTestOneFlag : Obligations.ConditionCodesTestOneFlag := fun cc f => ⟨condHolds_eq_true_iff cc f, rfl⟩

/-- IN as the draw of a byte and its record (R210). -/
theorem exec_inPort_of_draw {port : Byte} {s t : State} {v : Byte} (h : draw s = (v, t)) :
    exec (.inPort port) s = .next { t with a := v, events := t.events ++ [.portRead port v] } := by
  simp only [exec, execIn, ioRead, h, State.setA, State.record, State.setEvents]

/-- Settles O41: IN by the two ways a byte is drawn; OUT by evaluation. -/
theorem portsExchangeBytesWithThePlatform : Obligations.PortsExchangeBytesWithThePlatform := fun _ _ =>
  ⟨fun _ _ h => exec_inPort_of_draw (draw_listed h), fun h => exec_inPort_of_draw (draw_free h), rfl⟩

theorem exec_ei (s : State) :
    exec .ei s = .next { s with inte := true, eiWait := eiDelayOf s.params.eiDelay + 1 } := rfl

theorem exec_di (s : State) : exec .di s = .next { s with inte := false, eiWait := 0 } := rfl

theorem exec_hlt (s : State) : exec .hlt s = .next { s with halted := true } := rfl

/-- Settles O42: EI by the two values of `EiDelay`. -/
theorem eiDiAndHltWriteControlBits : Obligations.EiDiAndHltWriteControlBits := by
  intro s
  refine ⟨?ei, exec_di s, exec_hlt s⟩
  case ei =>
    rw [exec_ei]
    cases s.params.eiDelay <;> rfl

/-- Settles O53: the state after reset is written out. -/
theorem resetHasTheInvariant : Obligations.ResetHasTheInvariant :=
  ⟨⟨Memory.reset_wf, Nat.zero_le _, fun _ => rfl⟩, rfl, rfl, rfl, rfl⟩

end Sys2Proof.Accesses
end

section
/-! SUPPORT. The subtraction and the decimal adjustment of 41_arithmetic.md: the difference and its flags under either value of
`AuxSub`, and the default body of `Daa` in terms of the two digits. -/

namespace Sys2Proof.Subtraction

open Sys2Proof.Machine Sys2Proof.Config Sys2Proof.Spec Sys2Proof.Addition

/-! The subtracter and the instructions that use it. -/

theorem lowNibble_not (v : Byte) : lowNibble (~~~v) = 15 - lowNibble v := by
  have hv := v.isLt
  rw [lowNibble, BitVec.toNat_not, lowNibble]
  omega

/-- AC is the carry of the complement's addition, or the borrow that this carry denies (R101, D5). -/
theorem auxSub_spec (mode : AuxSub) (a v : Byte) (bin : Bool) :
    match mode with
    | .complementCarry => (auxSub mode a v bin = true ↔ v.toNat % 16 + bin.toNat ≤ a.toNat % 16)
    | .borrow => (auxSub mode a v bin = true ↔ a.toNat % 16 < v.toNat % 16 + bin.toNat) := by
  have hbin := bin.toNat_le
  cases mode with
  | complementCarry =>
    simp only [auxSub, decide_eq_true_iff, lowNibble_not]
    simp only [lowNibble]
    omega
  | borrow => exact decide_eq_true_iff

/-- The subtracter gives the difference and its five flags (R101). -/
theorem sub8_subResult (mode : AuxSub) (a v : Byte) (bin : Bool) :
    SubResult mode a v bin (sub8 mode a v bin).1 (sub8 mode a v bin).2 := by
  rw [sub8_eq]
  refine ⟨?difference, ?borrow, auxSub_spec mode a v bin, szpOf_flagsOf ..⟩
  case difference =>
    rw [BitVec.toNat_ofInt]
    omega
  case borrow =>
    rw [flagsOf_cy, decide_eq_true_iff]
    omega

/-- A subtraction from A ends with the difference in A, its flags, and every other field as `subFromA` found it. -/
theorem subFromA_eq (v : Byte) (bin : Bool) (s : State) :
    subFromA v bin s = { s with
      a := (sub8 s.params.auxSub s.a v bin).1, flags := (sub8 s.params.auxSub s.a v bin).2 } := rfl

theorem exec_sub (r : Operand8) (s : State) :
    exec (.sub r) s = .next (subFromA (readOperand r s).1 false (readOperand r s).2) := rfl

theorem exec_sui (v : Byte) (s : State) : exec (.sui v) s = .next (subFromA v false s) := rfl

theorem exec_sbb (r : Operand8) (s : State) :
    exec (.sbb r) s = .next (subFromA (readOperand r s).1 s.flags.cy (readOperand r s).2) := rfl

theorem exec_sbi (v : Byte) (s : State) : exec (.sbi v) s = .next (subFromA v s.flags.cy s) := rfl

/-- What SUB, SUI, SBB and SBI share: reading the operand, which ends in `t`, leaves A and the parameter. -/
theorem exec_subResult_of_subFromA {i : Instr} {s t : State} {v : Byte} {bin : Bool}
    (hexec : exec i s = .next (subFromA v bin t)) (ha : t.a = s.a) (hparams : t.params = s.params) :
    ∃ x f, exec i s = .next { t with a := x, flags := f } ∧ SubResult s.params.auxSub s.a v bin x f := by
  rw [subFromA_eq] at hexec
  rw [← ha, ← hparams]
  exact ⟨_, _, hexec, sub8_subResult ..⟩

theorem exec_dcr (r : Operand8) (s : State) :
    exec (.dcr r) s = .next (writeOperand r (sub8 s.params.auxSub (readOperand r s).1 1 false).1
      { (readOperand r s).2 with
        flags := { (sub8 s.params.auxSub (readOperand r s).1 1 false).2 with cy := s.flags.cy } }) := rfl

/-- Settles O20: the four subtractions from A by the one difference they share; DCR by the same subtracter. -/
theorem subtractionSetsDifferenceAndFlags : Obligations.SubtractionSetsDifferenceAndFlags := by
  intro r v s
  refine ⟨?sub, ?sui, ?sbb, ?sbi, ?dcr⟩
  case sub => exact exec_subResult_of_subFromA (exec_sub r s) (readOperand_a r s) (readOperand_params r s)
  case sui => exact exec_subResult_of_subFromA (exec_sui v s) rfl rfl
  case sbb => exact exec_subResult_of_subFromA (exec_sbb r s) (readOperand_a r s) (readOperand_params r s)
  case sbi => exact exec_subResult_of_subFromA (exec_sbi v s) rfl rfl
  case dcr => exact ⟨_, _, exec_dcr r s, sub8_subResult ..⟩

/-- The difference without a borrow in is zero for equal bytes only. -/
theorem subResult_z_iff {mode : AuxSub} {a v x : Byte} {f : Flags} (h : SubResult mode a v false x f) :
    f.z = true ↔ a = v := by
  obtain ⟨hdiff, -, -, -, hz, -⟩ := h
  rw [Bool.toNat_false] at hdiff
  rw [hz, ← BitVec.toNat_inj]
  have ha := a.isLt
  have hv := v.isLt
  omega

theorem subResult_cy_iff {mode : AuxSub} {a v x : Byte} {f : Flags} (h : SubResult mode a v false x f) :
    f.cy = true ↔ a.toNat < v.toNat := by
  obtain ⟨-, hcy, -⟩ := h
  exact hcy

theorem exec_cmp (r : Operand8) (s : State) :
    exec (.cmp r) s = .next (compareA (readOperand r s).1 (readOperand r s).2) := rfl

theorem exec_cpi (v : Byte) (s : State) : exec (.cpi v) s = .next (compareA v s) := rfl

/-- What CMP and CPI share: the flags of a subtraction whose difference goes nowhere (R137). -/
theorem exec_compare_of_compareA {i : Instr} {s t : State} {v : Byte} (hexec : exec i s = .next (compareA v t))
    (ha : t.a = s.a) (hparams : t.params = s.params) :
    ∃ x f, exec i s = .next { t with flags := f } ∧ SubResult s.params.auxSub s.a v false x f ∧
      (f.z = true ↔ s.a = v) ∧ (f.cy = true ↔ s.a.toNat < v.toNat) := by
  have hresult := sub8_subResult t.params.auxSub t.a v false
  rw [← ha, ← hparams]
  exact ⟨_, _, hexec, hresult, subResult_z_iff hresult, subResult_cy_iff hresult⟩

/-- Settles O21: the comparison both instructions make, after the read of CMP's operand. -/
theorem compareSetsFlagsOnly : Obligations.CompareSetsFlagsOnly := fun r v s =>
  ⟨exec_compare_of_compareA (exec_cmp r s) (readOperand_a r s) (readOperand_params r s),
    exec_compare_of_compareA (exec_cpi v s) rfl rfl⟩

/-! DAA. -/

/-- What the default body adds for the low digit (R116). -/
def lowCorrection (a : Byte) (ac : Bool) : Nat := if 9 < a.toNat % 16 ∨ ac = true then 6 else 0

/-- What the default body adds for the high digit (R116). -/
def highCorrection (a : Byte) (cy : Bool) : Nat :=
  if 9 < a.toNat / 16 ∨ cy = true ∨ (9 ≤ a.toNat / 16 ∧ 9 < a.toNat % 16) then 96 else 0

theorem lowCorrection_eq_iff (a : Byte) (ac : Bool) (low : Nat) :
    low = lowCorrection a ac ↔ (daaLow a ac → low = 6) ∧ (¬ daaLow a ac → low = 0) := by
  unfold lowCorrection daaLow
  split <;> simp [*]

theorem highCorrection_eq_iff (a : Byte) (cy : Bool) (high : Nat) :
    high = highCorrection a cy ↔ (daaHigh a cy → high = 96) ∧ (¬ daaHigh a cy → high = 0) := by
  unfold highCorrection daaHigh
  split <;> simp [*]

/-- The default body of R116: the corrected byte, the carry of its low digit, and CY. -/
theorem daaStandard_spec (a : Byte) (ac cy : Bool) :
    (daaStandard a ac cy).1.toNat = (a.toNat + lowCorrection a ac + highCorrection a cy) % 256 ∧
    ((daaStandard a ac cy).2.1 = true ↔ 15 < a.toNat % 16 + lowCorrection a ac) ∧
    ((daaStandard a ac cy).2.2 = true ↔ daaHigh a cy ∨ cy = true) := by
  have hlow : (decide (lowNibble a > 9) || ac) = decide (9 < a.toNat % 16 ∨ ac = true) := by simp [lowNibble]
  have hhigh : (decide (highNibble a > 9) || cy || (decide (highNibble a ≥ 9) && decide (lowNibble a > 9))) =
      decide (9 < a.toNat / 16 ∨ cy = true ∨ (9 ≤ a.toNat / 16 ∧ 9 < a.toNat % 16)) := by
    simp [lowNibble, highNibble, Bool.or_assoc]
  simp only [daaStandard, hlow, hhigh, decide_eq_true_iff]
  refine ⟨?sum, ?carry, by simp [daaHigh]⟩
  case sum =>
    have ha := a.isLt
    unfold lowCorrection highCorrection
    split_ifs <;> simp
    omega
  case carry =>
    unfold lowCorrection
    split_ifs <;> simp [lowNibble]

/-- DAA puts the corrected byte in A and takes S, Z and P from it (R116). -/
theorem exec_daa (s : State) :
    exec .daa s = .next { s with
      a := (daa s.params.daa s.a s.flags.ac s.flags.cy).1
      flags := flagsOf (daa s.params.daa s.a s.flags.ac s.flags.cy).1 (daa s.params.daa s.a s.flags.ac s.flags.cy).2.1
        (daa s.params.daa s.a s.flags.ac s.flags.cy).2.2 } := rfl

theorem exec_daa_standard {s : State} (h : s.params.daa = .standard) :
    exec .daa s = .next { s with
      a := (daaStandard s.a s.flags.ac s.flags.cy).1
      flags := flagsOf (daaStandard s.a s.flags.ac s.flags.cy).1 (daaStandard s.a s.flags.ac s.flags.cy).2.1
        (daaStandard s.a s.flags.ac s.flags.cy).2.2 } := by
  rw [exec_daa]
  simp only [daa, h]

/-- A byte of two decimal digits needs no correction. -/
theorem daaStandard_of_bcdValid {a : Byte} (h : bcdValid a) : daaStandard a false false = (a, false, false) := by
  obtain ⟨hlo, hhi⟩ := h
  have hlow : lowCorrection a false = 0 := by simp [lowCorrection]; omega
  have hhigh : ¬ daaHigh a false := by simp [daaHigh]; omega
  have hcorr : highCorrection a false = 0 := ((highCorrection_eq_iff a false _).mp rfl).2 hhigh
  obtain ⟨hsum, hac, hcy⟩ := daaStandard_spec a false false
  have hbyte : (daaStandard a false false).1 = a := by
    have ha := a.isLt
    rw [← BitVec.toNat_inj, hsum]
    omega
  have hacFalse : (daaStandard a false false).2.1 = false := by rw [← Bool.not_eq_true, hac]; omega
  have hcyFalse : (daaStandard a false false).2.2 = false := by rw [← Bool.not_eq_true, hcy]; simp [hhigh]
  exact Prod.ext hbyte (Prod.ext hacFalse hcyFalse)

/-- Settles O24: S, Z and P as of any result; under the default body its three lines and its fixed points. -/
theorem daaAdjustsAccumulatorOnly : Obligations.DaaAdjustsAccumulatorOnly := by
  intro s
  refine ⟨_, _, exec_daa s, szpOf_flagsOf .., fun hstandard => ?standard, fun hother => ?other⟩
  case standard =>
    rw [hstandard]
    obtain ⟨hsum, hac, hcy⟩ := daaStandard_spec s.a s.flags.ac s.flags.cy
    refine ⟨fun low high hl hl' hh hh' => ?_, hcy, fun hvalid hac0 hcy0 => ?_⟩
    · rw [(lowCorrection_eq_iff ..).mpr ⟨hl, hl'⟩, (highCorrection_eq_iff ..).mpr ⟨hh, hh'⟩]
      exact ⟨hsum, hac⟩
    · rw [hac0, hcy0]
      have hfixed : daa .standard s.a false false = (s.a, false, false) := daaStandard_of_bcdValid hvalid
      rw [hfixed]
      exact ⟨rfl, rfl, rfl⟩
  case other => rw [hother]; rfl

/-- The default body turns the binary sum of two decimal bytes into their decimal sum. -/
theorem daaStandard_of_addResult {a v x : Byte} {cin : Bool} {f : Flags} (hsum : AddResult a v cin x f) (ha : bcdValid a)
    (hv : bcdValid v) :
    bcdValid (daaStandard x f.ac f.cy).1 ∧
    bcdValue (daaStandard x f.ac f.cy).1 + 100 * (daaStandard x f.ac f.cy).2.2.toNat =
      bcdValue a + bcdValue v + cin.toNat := by
  obtain ⟨hx, hcy, hac, -⟩ := hsum
  obtain ⟨hbyte, -, hcarry⟩ := daaStandard_spec x f.ac f.cy
  have hhundreds := Bool.toNat_eq_one (b := (daaStandard x f.ac f.cy).2.2)
  have hle := Bool.toNat_le (daaStandard x f.ac f.cy).2.2
  have hcin := cin.toNat_le
  rw [hcarry] at hhundreds
  unfold bcdValid bcdValue at *
  unfold daaHigh at hhundreds
  rw [hbyte]
  unfold lowCorrection highCorrection
  rw [hcy] at hhundreds
  simp only [hcy, hac]
  split_ifs <;> omega

/-- Settles O25: ACI leaves the binary sum, which DAA turns into the decimal one. -/
theorem daaGivesTheDecimalSum : Obligations.DaaGivesTheDecimalSum := by
  intro s v hdaa ha hv
  obtain ⟨x, f, hexec, hsum⟩ := exec_addResult_of_addToA (exec_aci v s) rfl
  exact ⟨_, _, hexec, exec_daa_standard hdaa, daaStandard_of_addResult hsum ha hv⟩

end Sys2Proof.Subtraction
end

section
/-! SUPPORT. The stack over stored bytes: what a push leaves in memory, what a pop makes of it, and the calls, returns,
exchanges and interrupt acceptances built on them (R45, R46, D2). -/

namespace Sys2Proof.StackMemory

open Sys2Proof.Machine Sys2Proof.Config Sys2Proof.Spec Sys2Proof.DataTransfer Sys2Proof.ControlTransfer Sys2Proof.Accesses
  Sys2Proof.StackOrder

/-! Pushes and calls. -/

/-- Over RAM a push is seen by no device. -/
theorem push16_eq_of_ramAt {s : State} (hhi : ramAt s (s.sp - 1)) (hlo : ramAt s (s.sp - 2)) (w : Addr) :
    push16 w s = { s with sp := s.sp - 2, mem := (push16 w s).mem } := by
  have hlo' : ramAt (memWrite (s.sp - 1) (highByte w) s) (s.sp - 2) := (ramAt_memWrite ..).mpr hlo
  rw [push16_eq_writes_high_then_low, memWrite_ram _ hlo', memWrite_ram _ hhi]
  rfl

/-- A call changes PC, SP, and at most memory and the trace (R171). -/
theorem callTo_frame (target : Addr) (s : State) :
    callTo target s = { s with
      pc := target, sp := s.sp - 2, mem := (callTo target s).mem, events := (callTo target s).events } := by
  simp only [callTo_eq]
  rw [push16_eq]

theorem callTo_frame_of_ramAt {s : State} (hhi : ramAt s (s.sp - 1)) (hlo : ramAt s (s.sp - 2)) (target : Addr) :
    callTo target s = { s with pc := target, sp := s.sp - 2, mem := (callTo target s).mem } := by
  simp only [callTo_eq]
  rw [push16_eq_of_ramAt hhi hlo]

theorem callTo_byteAt (target : Addr) (s : State) (addr : Addr) :
    (callTo target s).byteAt addr = (push16 s.pc s).byteAt addr := rfl

theorem exec_call (target : Addr) (s : State) : exec (.call target) s = .next (callTo target s) := rfl

/-- Settles O32: the frame of a call, and the bytes its push of the PC leaves. -/
theorem callStoresTheReturnAddress : Obligations.CallStoresTheReturnAddress := fun target s =>
  ⟨_, exec_call target s, callTo_frame target s, push16_high s.pc, push16_low s.pc, fun _ => push16_byteAt_other s.pc s⟩

theorem exec_push (rp : StackPair) (s : State) : exec (.push rp) s = .next (push16 (readStackPair rp s) s) := rfl

/-- What PUSH stores, as its high and its low byte (R200). -/
def stackPairBytes (rp : StackPair) (s : State) : Byte × Byte :=
  match rp with
  | .bc => (s.b, s.c)
  | .de => (s.d, s.e)
  | .hl => (s.h, s.l)
  | .psw => (s.a, flagByte s.flags)

theorem readStackPair_eq_joinBytes (rp : StackPair) (s : State) :
    readStackPair rp s = joinBytes (stackPairBytes rp s).1 (stackPairBytes rp s).2 := by cases rp <;> rfl

/-- Settles O36: the two bytes of the pair, and the bytes and the frame of their push. -/
theorem pushStoresThePair : Obligations.PushStoresThePair := by
  intro rp s
  refine ⟨_, (stackPairBytes rp s).1, (stackPairBytes rp s).2, exec_push rp s, by cases rp <;> rfl, push16_eq _ s,
    fun hram => ?high, fun hram => ?low, fun _ => push16_byteAt_other _ s⟩
  case high => rw [push16_high _ hram, readStackPair_eq_joinBytes, highByte_joinBytes]
  case low => rw [push16_low _ hram, readStackPair_eq_joinBytes, lowByte_joinBytes]

/-! Pops and returns. -/

theorem exec_pop (rp : StackPair) (s : State) :
    exec (.pop rp) s = .next (writeStackPair rp (pop16 s).1 (pop16 s).2) := rfl

theorem writeStackPair_mem (rp : StackPair) (w : Addr) (s : State) : (writeStackPair rp w s).mem = s.mem := by
  cases rp <;> rfl

theorem writeStackPair_sp (rp : StackPair) (w : Addr) (s : State) : (writeStackPair rp w s).sp = s.sp := by
  cases rp <;> rfl

/-- A pair loaded with the word it holds already. -/
theorem writeStackPair_readStackPair (rp : StackPair) (s : State) : writeStackPair rp (readStackPair rp s) s = s := by
  rw [readStackPair_eq_joinBytes]
  cases rp with
  | bc => exact setBc_joinBytes s s.b s.c
  | de => exact setDe_joinBytes s s.d s.e
  | hl => exact setHl_joinBytes s s.h s.l
  | psw => simp [writeStackPair, stackPairBytes, State.setA, State.setFlags]

/-- Settles O37: a pop keeps memory whatever answers; over stored bytes its word goes to the pair byte by byte. -/
theorem popLoadsThePair : Obligations.PopLoadsThePair := by
  intro rp s
  refine ⟨_, exec_pop rp s, by rw [writeStackPair_mem, pop16_mem], by rw [writeStackPair_sp, pop16_sp], fun hlo hhi => ?_⟩
  rw [pop16_stored hlo hhi]
  cases rp with
  | bc => exact setBc_joinBytes ..
  | de => exact setDe_joinBytes ..
  | hl => exact setHl_joinBytes ..
  | psw => simp only [writeStackPair, highByte_joinBytes, lowByte_joinBytes, State.setA, State.setFlags, State.setSp]

/-- A pop undoes a push over RAM in any state `u` that has the SP of the push and the two bytes it stored. -/
theorem pop16_of_pushed {s u : State} {w : Addr} (hhi : ramAt s (s.sp - 1)) (hlo : ramAt s (s.sp - 2))
    (hsp : u.sp = s.sp - 2) (hmap : u.memMap = s.memMap) (hhigh : u.byteAt (s.sp - 1) = highByte w)
    (hlow : u.byteAt (s.sp - 2) = lowByte w) : pop16 u = (w, { u with sp := s.sp }) := by
  have hnext : u.sp + 1 = s.sp - 1 := by rw [hsp]; bv_omega
  have hend : u.sp + 2 = s.sp := by rw [hsp]; bv_omega
  have hstored1 : storedAt u u.sp := .inl (by rw [hmap, hsp]; exact hlo)
  have hstored2 : storedAt u (u.sp + 1) := .inl (by rw [hmap, hnext]; exact hhi)
  rw [pop16_stored hstored1 hstored2, hnext, hend, hsp, hhigh, hlow, joinBytes_high_low]
  rfl

/-- A return undoes a call in the same way (R193). -/
theorem returnTo_of_pushed {s u : State} {w : Addr} (hhi : ramAt s (s.sp - 1)) (hlo : ramAt s (s.sp - 2))
    (hsp : u.sp = s.sp - 2) (hmap : u.memMap = s.memMap) (hhigh : u.byteAt (s.sp - 1) = highByte w)
    (hlow : u.byteAt (s.sp - 2) = lowByte w) : returnTo u = { u with pc := w, sp := s.sp } := by
  rw [returnTo_eq, pop16_of_pushed hhi hlo hsp hmap hhigh hlow]

/-- Settles O35: the bytes a CALL pushed over RAM, found again by the pop of a RET. -/
theorem returnComesBackFromCall : Obligations.ReturnComesBackFromCall := by
  intro target s t u hhi hlo hcall hsp hmap hhigh hlow
  rw [exec_call] at hcall
  cases hcall
  rw [callTo_byteAt, push16_high s.pc hhi] at hhigh
  rw [callTo_byteAt, push16_low s.pc hlo] at hlow
  have hmap' : u.memMap = s.memMap := by rw [hmap, callTo_frame]
  have hsp' : u.sp = s.sp - 2 := by rw [hsp, callTo_frame]
  rw [exec_ret, returnTo_of_pushed hhi hlo hsp' hmap' hhigh hlow]

/-- Settles O38: the pop finds the word pushed, and loads the pair with what it holds. -/
theorem popRestoresWhatPushSaved : Obligations.PopRestoresWhatPushSaved := by
  intro rp s hhi hlo
  refine ⟨_, _, exec_push rp s, exec_pop rp _, ?_⟩
  rw [pop16_of_pushed hhi hlo (push16_sp _ s) (push16_memMap _ s) (push16_high _ hhi) (push16_low _ hlo)]
  have hframe : { push16 (readStackPair rp s) s with sp := s.sp } = { s with mem := (push16 (readStackPair rp s) s).mem } := by
    rw [push16_eq_of_ramAt hhi hlo]
  rw [hframe]
  exact writeStackPair_readStackPair rp { s with mem := _ }

/-! XTHL. -/

theorem setH_byteAt (s : State) (v : Byte) (addr : Addr) : (s.setH v).byteAt addr = s.byteAt addr := rfl

theorem setL_byteAt (s : State) (v : Byte) (addr : Addr) : (s.setL v).byteAt addr = s.byteAt addr := rfl

/-- The state XTHL ends in: two reads, two writes, and H and L loaded (R202, D17). -/
def xthlTo (s : State) : State :=
  let lo := memRead s.sp s
  let hi := memRead (s.sp + 1) lo.2
  ((memWrite s.sp s.l (memWrite (s.sp + 1) s.h hi.2)).setH hi.1).setL lo.1

theorem exec_xthl (s : State) : exec .xthl s = .next (xthlTo s) := rfl

theorem xthlTo_sp (s : State) : (xthlTo s).sp = s.sp := by simp [xthlTo]

/-- Over RAM XTHL writes H and L where it has read their new values, and nothing else (R202). -/
theorem exec_xthl_of_ramAt {s : State} (hlo : ramAt s s.sp) (hhi : ramAt s (s.sp + 1)) :
    ∃ t, exec .xthl s = .next t ∧ t = { s with h := s.byteAt (s.sp + 1), l := s.byteAt s.sp, mem := t.mem } ∧
      t.byteAt s.sp = s.l ∧ t.byteAt (s.sp + 1) = s.h ∧
      ∀ other, other ≠ s.sp → other ≠ s.sp + 1 → t.byteAt other = s.byteAt other := by
  have hlo' : ramAt (memWrite (s.sp + 1) s.h s) s.sp := (ramAt_memWrite ..).mpr hlo
  have hexec : exec .xthl s = .next
      (((memWrite s.sp s.l (memWrite (s.sp + 1) s.h s)).setH (s.byteAt (s.sp + 1))).setL (s.byteAt s.sp)) := by
    rw [exec_xthl, xthlTo, memRead_stored (storedAt_of_ramAt hlo)]
    simp only
    rw [memRead_stored (storedAt_of_ramAt hhi)]
  refine ⟨_, hexec, ?frame, ?low, ?high, fun other hlow hhigh => ?other⟩
  case frame => rw [memWrite_ram _ hlo', memWrite_ram _ hhi]; rfl
  case low => rw [setL_byteAt, setH_byteAt, memWrite_byteAt_same _ hlo']
  case high => rw [setL_byteAt, setH_byteAt, memWrite_byteAt_other _ _ (ne_add_one s.sp).symm, memWrite_byteAt_same _ hhi]
  case other => rw [setL_byteAt, setH_byteAt, memWrite_byteAt_other _ _ hlow, memWrite_byteAt_other _ _ hhigh]

/-- Settles O39: one XTHL, and a second one in the state it leaves, whose two bytes are the old L and H. -/
theorem xthlExchangesTopOfStack : Obligations.XthlExchangesTopOfStack := by
  intro s
  refine ⟨_, exec_xthl s, xthlTo_sp s, fun hlo hhi => ?_⟩
  obtain ⟨t, hexec, hframe, hlow, hhigh, hother⟩ := exec_xthl_of_ramAt hlo hhi
  have hmap : t.memMap = s.memMap := by rw [hframe]
  have hsp : t.sp = s.sp := by rw [hframe]
  have hh : t.h = s.byteAt (s.sp + 1) := by rw [hframe]
  have hl : t.l = s.byteAt s.sp := by rw [hframe]
  obtain ⟨u, hexec', hframe', hlow', hhigh', hother'⟩ :=
    exec_xthl_of_ramAt (s := t) (by rwa [ramAt, hmap, hsp]) (by rwa [ramAt, hmap, hsp])
  rw [hsp] at hframe' hlow' hhigh' hother'
  cases Host.Outcome.next.inj hexec
  refine ⟨hframe, hlow, hhigh, hother, u, hexec', by rw [hframe', hhigh], by rw [hframe', hlow], fun other => ?_⟩
  by_cases hesp : other = s.sp
  · rw [hesp, hlow', hl]
  · by_cases hesp' : other = s.sp + 1
    · rw [hesp', hhigh', hh]
    · rw [hother' other hesp hesp', hother other hesp hesp']

/-! The interrupt. -/

/-- The state an acceptance calls the restart address from (R244). -/
def disarmed (s : State) : State := { s with inte := false, eiWait := 0, halted := false }

theorem accept_eq_callTo (n : BitVec 3) (s : State) : accept n s = callTo (restartAddr n) (disarmed s) := rfl

theorem accept_byteAt (n : BitVec 3) (s : State) (addr : Addr) :
    (accept n s).byteAt addr = (push16 s.pc (disarmed s)).byteAt addr := rfl

theorem accept_byteAt_high {s : State} (n : BitVec 3) (h : ramAt s (s.sp - 1)) :
    (accept n s).byteAt (s.sp - 1) = highByte s.pc := by
  rw [accept_byteAt]
  exact push16_high (s := disarmed s) s.pc h

theorem accept_byteAt_low {s : State} (n : BitVec 3) (h : ramAt s (s.sp - 2)) :
    (accept n s).byteAt (s.sp - 2) = lowByte s.pc := by
  rw [accept_byteAt]
  exact push16_low (s := disarmed s) s.pc h

theorem accept_byteAt_other {s : State} (n : BitVec 3) {other : Addr} (h1 : other ≠ s.sp - 1) (h2 : other ≠ s.sp - 2) :
    (accept n s).byteAt other = s.byteAt other := by
  rw [accept_byteAt]
  exact push16_byteAt_other s.pc (disarmed s) h1 h2

/-- Settles O43: an acceptance is the call of the restart address from the state with INTE, EIWAIT and HALTED cleared. -/
theorem acceptSavesOnlyThePc : Obligations.AcceptSavesOnlyThePc := fun n s =>
  ⟨restartAddr n, restartAddr_toNat n, callTo_frame (restartAddr n) (disarmed s), accept_byteAt_high n, accept_byteAt_low n,
    fun _ => accept_byteAt_other n⟩

/-- Settles O47: the return from the call that an acceptance is. -/
theorem retResumesTheInterruptedProgram : Obligations.RetResumesTheInterruptedProgram := by
  intro n s hhi hlo
  have hreturn : returnTo (accept n s) = { accept n s with pc := s.pc, sp := s.sp } :=
    returnTo_of_pushed hhi hlo (accept_sp n s) (accept_memMap n s) (accept_byteAt_high n hhi) (accept_byteAt_low n hlo)
  have hframe := callTo_frame_of_ramAt (s := disarmed s) hhi hlo (restartAddr n)
  rw [exec_ret, hreturn, accept_eq_callTo, hframe]
  rfl

end Sys2Proof.StackMemory
end

section
/-! SUPPORT. The cycles that devices see: one read or write at a device address, then the two of every 16-bit transfer in the
order of R44, and the three of an instruction fetched from devices. -/

namespace Sys2Proof.DeviceCycles

open Sys2Proof.Machine Sys2Proof.Config Sys2Proof.Spec Sys2Proof.FlagRules Sys2Proof.StackOrder Sys2Proof.OpcodeLength
  Sys2Proof.ControlTransfer Sys2Proof.Accesses Sys2Proof.StackMemory

/-- The state after reads from devices: the cycles they saw, and the platform's bytes that are left. -/
def afterReads (seen : List BusEvent) (left : List Byte) (s : State) : State :=
  { s with busAnswers := left, events := s.events ++ seen }

theorem afterReads_afterReads (seen seen' : List BusEvent) (left left' : List Byte) (s : State) :
    afterReads seen' left' (afterReads seen left s) = afterReads (seen ++ seen') left' s := by
  simp [afterReads]

/-- A read from a device takes the next byte listed and is seen (R41, D13). -/
theorem memRead_device {s : State} {addr : Addr} {v : Byte} {rest : List Byte} (hdevice : isDevice s addr)
    (hlisted : s.busAnswers = v :: rest) : memRead addr s = (v, afterReads [.memRead addr v] rest s) := by
  simp only [memRead, show kindAt s.memMap addr = .device from hdevice, draw_listed hlisted, State.record, State.setEvents,
    afterReads]

/-- A second read from a device, after a first one that left its byte. -/
theorem memRead_device_second {s : State} {addr : Addr} {v : Byte} {rest : List Byte} (hdevice : isDevice s addr)
    (seen : BusEvent) :
    memRead addr (afterReads [seen] (v :: rest) s) = (v, afterReads [seen, .memRead addr v] rest s) :=
  (memRead_device (s := afterReads [seen] (v :: rest) s) hdevice rfl).trans (by rw [afterReads_afterReads]; rfl)

/-- A write to a device is seen and stores nothing (R42, D13). -/
theorem memWrite_device {s : State} {addr : Addr} (hdevice : isDevice s addr) (v : Byte) :
    memWrite addr v s = { s with events := s.events ++ [.memWrite addr v] } := by
  simp only [memWrite, show kindAt s.memMap addr = .device from hdevice, State.record, State.setEvents]

/-- Two writes to devices, one after the other. -/
theorem memWrite_memWrite_device {s : State} {addr addr' : Addr} (hdevice : isDevice s addr) (hdevice' : isDevice s addr')
    (v v' : Byte) :
    memWrite addr' v' (memWrite addr v s) =
      { s with events := s.events ++ [.memWrite addr v, .memWrite addr' v'] } := by
  rw [memWrite_device hdevice,
    memWrite_device (s := { s with events := s.events ++ [.memWrite addr v] }) hdevice', List.append_assoc]
  rfl

/-! The 16-bit transfers. -/

theorem push16_device {s : State} (hhi : isDevice s (s.sp - 1)) (hlo : isDevice s (s.sp - 2)) (w : Addr) :
    push16 w s = { s with sp := s.sp - 2, events := s.events ++ pushEvents s w } := by
  rw [push16_eq_writes_high_then_low, memWrite_memWrite_device hhi hlo]
  rfl

theorem callTo_device_events {s : State} (hhi : isDevice s (s.sp - 1)) (hlo : isDevice s (s.sp - 2)) (target : Addr) :
    (callTo target s).events = s.events ++ pushEvents s s.pc := by
  rw [callTo_eq, push16_device hhi hlo]

theorem pop16_device {s : State} {lo hi : Byte} {rest : List Byte} (hlo : isDevice s s.sp) (hhi : isDevice s (s.sp + 1))
    (hlisted : s.busAnswers = lo :: hi :: rest) :
    pop16 s = (joinBytes hi lo, { s with
      sp := s.sp + 2, busAnswers := rest, events := s.events ++ [.memRead s.sp lo, .memRead (s.sp + 1) hi] }) := by
  exact pop16_eq_of_reads_low_then_high (memRead_device hlo hlisted) (memRead_device_second hhi _)

theorem exec_lhld_device {s : State} {addr : Addr} {lo hi : Byte} {rest : List Byte} (hlo : isDevice s addr)
    (hhi : isDevice s (addr + 1)) (hlisted : s.busAnswers = lo :: hi :: rest) :
    exec (.lhld addr) s = .next { s with
      l := lo, h := hi, busAnswers := rest, events := s.events ++ [.memRead addr lo, .memRead (addr + 1) hi] } := by
  simp only [exec, execLhld, memRead_device hlo hlisted, memRead_device_second hhi]
  rfl

/-- XTHL's four cycles: two reads upwards, then two writes downwards (D17). -/
theorem exec_xthl_device {s : State} {lo hi : Byte} {rest : List Byte} (hlo : isDevice s s.sp)
    (hhi : isDevice s (s.sp + 1)) (hlisted : s.busAnswers = lo :: hi :: rest) :
    exec .xthl s = .next { s with
      l := lo, h := hi, busAnswers := rest,
      events := s.events ++
        [.memRead s.sp lo, .memRead (s.sp + 1) hi, .memWrite (s.sp + 1) s.h, .memWrite s.sp s.l] } := by
  simp only [exec_xthl, xthlTo, memRead_device hlo hlisted, memRead_device_second hhi]
  rw [memWrite_memWrite_device (s := afterReads _ rest s) hhi hlo]
  simp [afterReads, State.setH, State.setL]

/-! The fetch of three bytes. -/

theorem fetch8_device {s : State} {v : Byte} {rest : List Byte} (hdevice : isDevice s s.pc)
    (hlisted : s.busAnswers = v :: rest) :
    fetch8 s = (v, (afterReads [.memRead s.pc v] rest s).setPc (s.pc + 1)) := by
  rw [fetch8, memRead_device hdevice hlisted]

/-- A fetch from a device at `p`, after others that left its byte. -/
theorem fetch8_device_later {s : State} {p : Addr} {v : Byte} {rest : List Byte} (hdevice : isDevice s p)
    (seen : List BusEvent) :
    fetch8 ((afterReads seen (v :: rest) s).setPc p) =
      (v, (afterReads (seen ++ [.memRead p v]) rest s).setPc (p + 1)) := by
  rw [fetch8_device (s := (afterReads seen (v :: rest) s).setPc p) hdevice rfl, ← afterReads_afterReads (left := v :: rest)]
  rfl

theorem takesWord_of_threeByteOpcode {op : Byte} (h : op ∈ threeByteOpcodes) : ∃ f, decodeOpcode op = .takesWord f := by
  have hlength := formLength_eq_listed op
  rw [if_pos h] at hlength
  cases hform : decodeOpcode op with
  | takesWord f => exact ⟨f, rfl⟩
  | unused | bare _ | takesByte _ => rw [hform] at hlength; cases hlength

/-- Whatever takes a word is fetched with its two bytes, the low one first (R65). -/
theorem fetchInstr_takesWord {s : State} {f : Addr → Instr} (h : decodeOpcode (fetch8 s).1 = .takesWord f) :
    fetchInstr s = .ok (f (fetch16 (fetch8 s).2).1, (fetch16 (fetch8 s).2).2) := by
  simp only [fetchInstr, h]

theorem fetchInstr_device {s : State} {op b2 b3 : Byte} {rest : List Byte} {f : Addr → Instr}
    (hform : decodeOpcode op = .takesWord f) (hlisted : s.busAnswers = op :: b2 :: b3 :: rest) (h0 : isDevice s s.pc)
    (h1 : isDevice s (s.pc + 1)) (h2 : isDevice s (s.pc + 2)) :
    fetchInstr s = .ok (f (joinBytes b3 b2), { s with
      pc := s.pc + 3, busAnswers := rest,
      events := s.events ++ [.memRead s.pc op, .memRead (s.pc + 1) b2, .memRead (s.pc + 2) b3] }) := by
  have hop := fetch8_device h0 hlisted
  have hpc2 : s.pc + 1 + 1 = s.pc + 2 := by bv_omega
  have hpc3 : s.pc + 2 + 1 = s.pc + 3 := by bv_omega
  rw [fetchInstr_takesWord (f := f) (by rw [hop, hform]), hop]
  simp only [fetch16, fetch8_device_later h1, hpc2, fetch8_device_later h2, hpc3]
  rfl

/-- Settles O40: the transfers row by row, the pushes and pops each by the one push and the one pop they all make. -/
theorem devicesSeeTheByteOrder : Obligations.DevicesSeeTheByteOrder := by
  intro s addr rp cc
  refine ⟨fun hlo hhi => ?shld, fun hhi hlo => ⟨?push, ?call, fun hcc => ?callOn, fun n => ?rst, fun n => ?accept⟩,
    fun lo hi rest hlisted => ⟨fun hlo hhi => exec_lhld_device hlo hhi hlisted, fun hlo hhi => ?pops⟩,
    fun op b2 b3 rest hlisted hop h0 h1 h2 => ?fetch⟩
  case shld => exact ⟨_, exec_shld addr s, by rw [memWrite_memWrite_device hlo hhi]⟩
  case push => exact ⟨_, exec_push rp s, by rw [push16_device hhi hlo]⟩
  case call => exact ⟨_, exec_call addr s, callTo_device_events hhi hlo addr⟩
  case callOn => exact ⟨_, (exec_taken_or_not (exec_callOn cc addr s)).1 hcc, callTo_device_events hhi hlo addr⟩
  case rst => exact ⟨_, exec_rst n s, callTo_device_events hhi hlo _⟩
  case accept => exact callTo_device_events (s := disarmed s) hhi hlo (restartAddr n)
  case pops =>
    have hpop := pop16_device hlo hhi hlisted
    refine ⟨by rw [exec_pop, hpop], by rw [exec_ret, returnTo_eq, hpop], fun hcc => ?_, exec_xthl_device hlo hhi hlisted⟩
    rw [(exec_taken_or_not (exec_returnOn cc s)).1 hcc, exec_ret]
  case fetch =>
    obtain ⟨f, hform⟩ := takesWord_of_threeByteOpcode hop
    exact ⟨_, decode_takesWord hform b2 b3 [], fetchInstr_device hform hlisted h0 h1 h2⟩

end Sys2Proof.DeviceCycles
end

section
/-! SUPPORT. What every instruction does to memory and the platform, said once: it is a sequence of bus cycles, with writes at
the addresses the rule names and port cycles for IN and OUT alone. Each rule of the whole memory is then an induction over the
cycles. -/

namespace Sys2Proof.BusCycles

open Sys2Proof.Machine Sys2Proof.Config Sys2Proof.Spec Sys2Proof.Accesses

/-- The part of the state that bus cycles act on or depend on. -/
def busSide (s : State) : Memory × List Region × Params × List Byte × Nat × List BusEvent :=
  (s.mem, s.memMap, s.params, s.busAnswers, s.draws, s.events)

/-- `t` is reached from `s` by bus cycles and changes of the processor's own registers; the writes are at addresses in `stores`,
and there are port cycles only if `ports` holds. -/
inductive Cycles (ports : Prop) (stores : Addr → Prop) (s : State) : State → Prop where
  | start : Cycles ports stores s s
  | registers {t u : State} (h : Cycles ports stores s t) (hbus : busSide u = busSide t) : Cycles ports stores s u
  | read {t : State} (h : Cycles ports stores s t) (addr : Addr) : Cycles ports stores s (memRead addr t).2
  | write {t : State} (h : Cycles ports stores s t) {addr : Addr} (haddr : stores addr) (v : Byte) :
      Cycles ports stores s (memWrite addr v t)
  | portRead {t : State} (h : Cycles ports stores s t) (hports : ports) (port : Byte) : Cycles ports stores s (ioRead port t).2
  | portWrite {t : State} (h : Cycles ports stores s t) (hports : ports) (port v : Byte) :
      Cycles ports stores s (ioWrite port v t)

section
variable {ports : Prop} {stores : Addr → Prop} {s t : State}

/-! What cycles keep. -/

theorem busSide_eq_iff (s t : State) :
    busSide t = busSide s ↔ t.mem = s.mem ∧ t.memMap = s.memMap ∧ t.params = s.params ∧ t.busAnswers = s.busAnswers ∧
      t.draws = s.draws ∧ t.events = s.events := by simp [busSide]

theorem byteAt_of_busSide_eq (h : busSide t = busSide s) (addr : Addr) : t.byteAt addr = s.byteAt addr := by
  obtain ⟨hmem, -⟩ := (busSide_eq_iff s t).mp h
  rw [State.byteAt, hmem, State.byteAt]

/-- The memory map and the parameters are the platform's choices (D13). -/
theorem Cycles.config (h : Cycles ports stores s t) : t.memMap = s.memMap ∧ t.params = s.params := by
  induction h with
  | start => exact ⟨rfl, rfl⟩
  | registers _ hbus ih =>
    obtain ⟨-, hmap, hparams, -⟩ := (busSide_eq_iff _ _).mp hbus
    exact ⟨hmap.trans ih.1, hparams.trans ih.2⟩
  | read | write | portRead | portWrite => simpa

/-- A byte no cycle writes to is kept. -/
theorem Cycles.byteAt_of_not_stores (h : Cycles ports stores s t) {addr : Addr} (haddr : ¬ stores addr) :
    t.byteAt addr = s.byteAt addr := by
  induction h with
  | start => rfl
  | registers _ hbus ih => rw [byteAt_of_busSide_eq hbus, ih]
  | read _ a ih => rw [memRead_byteAt, ih]
  | write _ ha v ih => rw [memWrite_byteAt_other v _ fun hsame => haddr (by rw [hsame]; exact ha), ih]
  | portRead _ _ port ih => rw [State.byteAt, ioRead_mem]; exact ih
  | portWrite _ _ port v ih => exact ih

/-- A byte outside RAM is kept, wherever the writes are (D13, D20). -/
theorem Cycles.byteAt_of_not_ramAt (h : Cycles ports stores s t) {addr : Addr} (haddr : ¬ ramAt s addr) :
    t.byteAt addr = s.byteAt addr := by
  induction h with
  | start => rfl
  | registers _ hbus ih => rw [byteAt_of_busSide_eq hbus, ih]
  | read _ a ih => rw [memRead_byteAt, ih]
  | write h _ v ih => rw [memWrite_byteAt_notRam v _ (by rw [h.config.1]; exact haddr), ih]
  | portRead _ _ port ih => rw [State.byteAt, ioRead_mem]; exact ih
  | portWrite _ _ port v ih => exact ih

theorem Cycles.wf (h : Cycles ports stores s t) (hwf : Memory.wf s.mem = true) : Memory.wf t.mem = true := by
  induction h with
  | start => exact hwf
  | registers _ hbus ih =>
    obtain ⟨hmem, -⟩ := (busSide_eq_iff _ _).mp hbus
    rwa [hmem]
  | read _ a ih => rwa [memRead_mem]
  | write _ _ v ih => exact memWrite_wf _ v _ ih
  | portRead _ _ port ih => rwa [ioRead_mem]
  | portWrite _ _ port v ih => exact ih

theorem memRead_events_grow (addr : Addr) (s : State) : s.events <+: (memRead addr s).2.events := by
  unfold memRead; split <;> simp

theorem memWrite_events_grow (addr : Addr) (v : Byte) (s : State) : s.events <+: (memWrite addr v s).events := by
  unfold memWrite; split <;> simp

/-- The trace only grows (D14). -/
theorem Cycles.events_grow (h : Cycles ports stores s t) : s.events <+: t.events := by
  induction h with
  | start => exact List.prefix_rfl
  | registers _ hbus ih =>
    obtain ⟨-, -, -, -, -, hevents⟩ := (busSide_eq_iff _ _).mp hbus
    rwa [hevents]
  | read _ a ih => exact ih.trans (memRead_events_grow a _)
  | write _ _ v ih => exact ih.trans (memWrite_events_grow _ v _)
  | portRead _ _ port ih => exact ih.trans (by simp [ioRead])
  | portWrite _ _ port v ih => exact ih.trans (by simp [ioWrite])

theorem memWrite_events_of_storedAt {addr : Addr} (h : storedAt s addr) (v : Byte) :
    (memWrite addr v s).events = s.events := by
  obtain hkind | hkind := h <;> simp [memWrite, hkind]

/-- Where all bytes are stored, memory cycles ask nothing of the platform and show it nothing (R41). -/
theorem Cycles.platform (h : Cycles ports stores s t) (hports : ¬ ports) (hstored : ∀ addr, storedAt s addr) :
    t.busAnswers = s.busAnswers ∧ t.draws = s.draws ∧ t.events = s.events := by
  have hstored' : ∀ {u}, Cycles ports stores s u → ∀ addr, storedAt u addr := fun hu addr => by
    rw [storedAt, hu.config.1]
    exact hstored addr
  induction h with
  | start => exact ⟨rfl, rfl, rfl⟩
  | registers _ hbus ih =>
    obtain ⟨-, -, -, hanswers, hdraws, hevents⟩ := (busSide_eq_iff _ _).mp hbus
    rwa [hanswers, hdraws, hevents]
  | read h a ih => rwa [memRead_stored (hstored' h a)]
  | write h _ v ih => rwa [memWrite_busAnswers, memWrite_draws, memWrite_events_of_storedAt (hstored' h _)]
  | portRead _ hp => exact absurd hp hports
  | portWrite _ hp => exact absurd hp hports

/-! The shared operations as cycles. -/

theorem Cycles.readOperand (h : Cycles ports stores s t) (r : Operand8) : Cycles ports stores s (readOperand r t).2 := by
  cases r with
  | m => exact h.read t.hl
  | b | c | d | e | h | l | a => exact h

theorem Cycles.writeOperand {r : Operand8} (h : Cycles ports stores s t) (haddr : r = .m → stores t.hl) (v : Byte) :
    Cycles ports stores s (writeOperand r v t) := by
  cases r with
  | m => exact h.write (haddr rfl) v
  | b | c | d | e | h | l | a => exact h.registers rfl

theorem Cycles.setFlags (h : Cycles ports stores s t) (f : Flags) : Cycles ports stores s (t.setFlags f) := h.registers rfl

theorem Cycles.push16 (h : Cycles ports stores s t) (hhi : stores (t.sp - 1)) (hlo : stores (t.sp - 2)) (w : Addr) :
    Cycles ports stores s (push16 w t) := ((h.write hhi _).write hlo _).registers rfl

theorem Cycles.pop16 (h : Cycles ports stores s t) : Cycles ports stores s (pop16 t).2 :=
  ((h.read _).read _).registers rfl

theorem Cycles.callTo (h : Cycles ports stores s t) (hhi : stores (t.sp - 1)) (hlo : stores (t.sp - 2)) (target : Addr) :
    Cycles ports stores s (callTo target t) := (h.push16 hhi hlo _).registers rfl

theorem Cycles.returnTo (h : Cycles ports stores s t) : Cycles ports stores s (returnTo t) := h.pop16.registers rfl

theorem Cycles.mono {ports' : Prop} {stores' : Addr → Prop} (h : Cycles ports stores s t) (hports : ports → ports')
    (hstores : ∀ addr, stores addr → stores' addr) : Cycles ports' stores' s t := by
  induction h with
  | start => exact .start
  | registers _ hbus ih => exact ih.registers hbus
  | read _ a ih => exact ih.read a
  | write _ ha v ih => exact ih.write (hstores _ ha) v
  | portRead _ hp port ih => exact ih.portRead (hports hp) port
  | portWrite _ hp port v ih => exact ih.portWrite (hports hp) port v

theorem Cycles.trans {u : State} (h : Cycles ports stores s t) (h' : Cycles ports stores t u) : Cycles ports stores s u := by
  induction h' with
  | start => exact h
  | registers _ hbus ih => exact ih.registers hbus
  | read _ a ih => exact ih.read a
  | write _ ha v ih => exact ih.write ha v
  | portRead _ hp port ih => exact ih.portRead hp port
  | portWrite _ hp port v ih => exact ih.portWrite hp port v

end

/-! Every instruction as cycles. -/

/-- IN and OUT, the instructions with port cycles (R47). -/
def usesPorts (i : Instr) : Prop := (∃ port, i = .inPort port) ∨ ∃ port, i = .outPort port

theorem hl_mem_operandAddrs {r : Operand8} {s t : State} (hhl : t.hl = s.hl) (hr : r = .m) :
    t.hl ∈ operandAddrs r s := by simp [operandAddrs, hr, hhl]

theorem readOperand_hl (r : Operand8) (s : State) : (readOperand r s).2.hl = s.hl := by simp [State.hl]

theorem busSide_writePair (p : RegPair) (w : Addr) (s : State) : busSide (writePair p w s) = busSide s := by cases p <;> rfl

theorem busSide_writeStackPair (p : StackPair) (w : Addr) (s : State) : busSide (writeStackPair p w s) = busSide s := by
  cases p <;> rfl

theorem jumpIf_cycles {ports : Prop} {stores : Addr → Prop} (cond : Bool) (target : Addr) (s : State) :
    Cycles ports stores s (jumpIf cond target s) := by
  cases cond with
  | false => exact .start
  | true => exact .registers .start rfl

theorem callTo_cycles {ports : Prop} (target : Addr) (s : State) : Cycles ports (· ∈ pushAddrs s) s (callTo target s) :=
  Cycles.start.callTo (by simp [pushAddrs]) (by simp [pushAddrs]) target

theorem callIf_cycles {ports : Prop} (cond : Bool) (target : Addr) (s : State) :
    Cycles ports (· ∈ pushAddrsIf cond s) s (callIf cond target s) := by
  cases cond with
  | false => exact .start
  | true => exact callTo_cycles target s

theorem returnIf_cycles {ports : Prop} {stores : Addr → Prop} (cond : Bool) (s : State) :
    Cycles ports stores s (returnIf cond s) := by
  cases cond with
  | false => exact .start
  | true => exact Cycles.start.returnTo

/-- An instruction's cycles, by the accesses of its meaning. -/
theorem exec_cycles {i : Instr} {s t : State} (h : exec i s = .next t) :
    Cycles (usesPorts i) (· ∈ storeAddrs i s) s t := by
  cases i with
  -- An operand is read or written, or both.
  | mov dst src =>
    rw [eq_of_exec_mov h]
    exact (Cycles.start.readOperand src).writeOperand (hl_mem_operandAddrs (readOperand_hl src s)) _
  | mvi dst v => cases h; exact Cycles.start.writeOperand (hl_mem_operandAddrs rfl) v
  | inr dst | dcr dst =>
    cases h
    refine ((Cycles.start.readOperand dst).setFlags _).writeOperand ?_ _
    exact hl_mem_operandAddrs (readOperand_hl dst s)
  | add r | adc r | sub r | sbb r | ana r | xra r | ora r | cmp r =>
    cases h; exact (Cycles.start.readOperand r).registers rfl
  -- Memory is read or written at an address of the instruction or of a pair.
  | lda addr => cases h; exact (Cycles.start.read addr).registers rfl
  | ldax p => cases h; exact (Cycles.start.read (indexAddr p s)).registers rfl
  | lhld addr => cases h; exact ((Cycles.start.read addr).read (addr + 1)).registers rfl
  | sta addr => cases h; exact Cycles.start.write (by simp [storeAddrs]) _
  | stax p => cases h; exact Cycles.start.write (by simp [storeAddrs]) _
  | shld addr => cases h; exact (Cycles.start.write (by simp [storeAddrs]) _).write (by simp [storeAddrs]) _
  -- The stack.
  | push p => cases h; exact Cycles.start.push16 (by simp [storeAddrs, pushAddrs]) (by simp [storeAddrs, pushAddrs]) _
  | pop p => cases h; exact Cycles.start.pop16.registers (busSide_writeStackPair p _ _)
  | xthl =>
    cases h
    exact ((((Cycles.start.read s.sp).read (s.sp + 1)).write (by simp [storeAddrs]) _).write
      (by simp [storeAddrs]) _).registers rfl
  | call target => cases h; exact callTo_cycles target s
  | rst n => cases h; exact callTo_cycles (restartAddr n) s
  | ret => cases h; exact Cycles.start.returnTo
  | cnz a | cz a | cnc a | cc a | cpo a | cpe a | cp a | cm a => cases h; exact callIf_cycles _ a s
  | rnz | rz | rnc | rc | rpo | rpe | rp | rm => cases h; exact returnIf_cycles _ s
  -- Ports.
  | inPort port => cases h; exact (Cycles.start.portRead (.inl ⟨port, rfl⟩) port).registers rfl
  | outPort port => cases h; exact Cycles.start.portWrite (.inr ⟨port, rfl⟩) port _
  -- Registers only.
  | lxi p _ | inx p | dcx p => cases h; exact Cycles.start.registers (busSide_writePair p _ s)
  | jnz a | jz a | jnc a | jc a | jpo a | jpe a | jp a | jm a => cases h; exact jumpIf_cycles _ a s
  | adi _ | aci _ | sui _ | sbi _ | ani _ | xri _ | ori _ | cpi _ | dad _ | daa | rlc | rrc | ral | rar | cma | cmc | stc
  | xchg | sphl | pchl | jmp _ | ei | di | hlt | nop => cases h; exact Cycles.start.registers rfl

/-- Settles O49: the writes among an instruction's cycles are at the addresses its rule names. -/
theorem memoryChangesOnlyWhereStored : Obligations.MemoryChangesOnlyWhereStored :=
  fun _ _ _ h _ haddr => (exec_cycles h).byteAt_of_not_stores haddr

/-- Settles O51: without port cycles, and with stored bytes everywhere, no cycle touches the platform. -/
theorem onlyPortsTouchThePlatform : Obligations.OnlyPortsTouchThePlatform := by
  intro i s t hstored h hin hout
  refine (exec_cycles h).platform ?_ hstored
  rintro (⟨port, rfl⟩ | ⟨port, rfl⟩)
  · exact hin port rfl
  · exact hout port rfl

end Sys2Proof.BusCycles
end

section
/-! SUPPORT. What each instruction leaves of the processor's own state: the 8-bit registers, SP, PC, and the control bits with the
interrupt source, one lemma for each of these four parts. -/

namespace Sys2Proof.RegisterFrame

open Sys2Proof.Machine Sys2Proof.Config Sys2Proof.Spec Sys2Proof.FlagRules Sys2Proof.Accesses Sys2Proof.StackMemory
  Sys2Proof.BusCycles

/-! The 8-bit registers. -/

/-- The register of a 3-bit code; M is none (R10). -/
def reg8 (r : Operand8) (s : State) : Byte :=
  match r with
  | .b => s.b | .c => s.c | .d => s.d | .e => s.e | .h => s.h | .l => s.l | .m => 0 | .a => s.a

theorem readOperand_fst_of_ne_m {r : Operand8} (h : r ≠ .m) (s : State) : (readOperand r s).1 = reg8 r s := by
  cases r with
  | m => exact absurd rfl h
  | b | c | d | e | h | l | a => rfl

section
variable (r : Operand8) (s : State)

@[simp] theorem reg8_setFlags (f : Flags) : reg8 r (s.setFlags f) = reg8 r s := by cases r <;> rfl
@[simp] theorem reg8_setSp (w : Addr) : reg8 r (s.setSp w) = reg8 r s := by cases r <;> rfl
@[simp] theorem reg8_setPc (w : Addr) : reg8 r (s.setPc w) = reg8 r s := by cases r <;> rfl
@[simp] theorem reg8_memRead (addr : Addr) : reg8 r (memRead addr s).2 = reg8 r s := by
  cases r <;> simp [reg8]
@[simp] theorem reg8_memWrite (addr : Addr) (v : Byte) : reg8 r (memWrite addr v s) = reg8 r s := by
  cases r <;> simp [reg8]
@[simp] theorem reg8_ioRead (port : Byte) : reg8 r (ioRead port s).2 = reg8 r s := by
  cases r <;> simp [reg8]
@[simp] theorem reg8_push16 (w : Addr) : reg8 r (push16 w s) = reg8 r s := by
  cases r <;> simp [reg8]
@[simp] theorem reg8_pop16 : reg8 r (pop16 s).2 = reg8 r s := by cases r <;> simp [reg8]
@[simp] theorem reg8_readOperand (r' : Operand8) : reg8 r (readOperand r' s).2 = reg8 r s := by
  cases r <;> simp [reg8]
@[simp] theorem reg8_callTo (target : Addr) : reg8 r (callTo target s) = reg8 r s := by simp [callTo]
@[simp] theorem reg8_returnTo : reg8 r (returnTo s) = reg8 r s := by simp [returnTo]
@[simp] theorem reg8_jumpIf (cond : Bool) (target : Addr) : reg8 r (jumpIf cond target s) = reg8 r s := by
  cases cond <;> simp [jumpIf]
@[simp] theorem reg8_callIf (cond : Bool) (target : Addr) : reg8 r (callIf cond target s) = reg8 r s := by
  cases cond <;> simp [callIf]
@[simp] theorem reg8_returnIf (cond : Bool) : reg8 r (returnIf cond s) = reg8 r s := by
  cases cond <;> simp [returnIf]

end

section
variable {r : Operand8}

theorem reg8_writeOperand {dst : Operand8} (h : r ≠ dst) (v : Byte) (s : State) :
    reg8 r (writeOperand dst v s) = reg8 r s := by
  cases dst with
  | m => exact reg8_memWrite r s s.hl v
  | b | c | d | e | h | l | a => cases r <;> simp_all [writeOperand, reg8]

theorem reg8_setA (h : r ≠ .a) (v : Byte) (s : State) : reg8 r (s.setA v) = reg8 r s :=
  reg8_writeOperand h v s

theorem reg8_setAlu (h : r ≠ .a) (x : Byte × Flags) (s : State) : reg8 r (s.setAlu x) = reg8 r s := by
  rw [State.setAlu, reg8_setFlags, reg8_setA h]

theorem reg8_setBc (hb : r ≠ .b) (hc : r ≠ .c) (w : Addr) (s : State) : reg8 r (s.setBc w) = reg8 r s :=
  (reg8_writeOperand hc _ _).trans (reg8_writeOperand hb _ s)

theorem reg8_setDe (hd : r ≠ .d) (he : r ≠ .e) (w : Addr) (s : State) : reg8 r (s.setDe w) = reg8 r s :=
  (reg8_writeOperand he _ _).trans (reg8_writeOperand hd _ s)

theorem reg8_setHl (hh : r ≠ .h) (hl : r ≠ .l) (w : Addr) (s : State) : reg8 r (s.setHl w) = reg8 r s :=
  (reg8_writeOperand hl _ _).trans (reg8_writeOperand hh _ s)

theorem reg8_setL_setH (hh : r ≠ .h) (hl : r ≠ .l) (v v' : Byte) (s : State) :
    reg8 r ((s.setL v).setH v') = reg8 r s :=
  (reg8_writeOperand hh v' _).trans (reg8_writeOperand hl v s)

theorem reg8_setH_setL (hh : r ≠ .h) (hl : r ≠ .l) (v v' : Byte) (s : State) :
    reg8 r ((s.setH v).setL v') = reg8 r s :=
  (reg8_writeOperand hl v' _).trans (reg8_writeOperand hh v s)

theorem ne_second_of_not_mem {x y : Operand8} {rest : List Operand8} (h : r ∉ x :: y :: rest) : r ≠ y :=
  List.ne_of_not_mem_cons (List.not_mem_of_not_mem_cons h)

theorem reg8_writePair {p : RegPair} (h : r ∉ pairRegisters p) (w : Addr) (s : State) :
    reg8 r (writePair p w s) = reg8 r s := by
  cases p with
  | bc => exact reg8_setBc (List.ne_of_not_mem_cons h) (ne_second_of_not_mem h) w s
  | de => exact reg8_setDe (List.ne_of_not_mem_cons h) (ne_second_of_not_mem h) w s
  | hl => exact reg8_setHl (List.ne_of_not_mem_cons h) (ne_second_of_not_mem h) w s
  | sp => exact reg8_setSp r s w

theorem reg8_writeStackPair {p : StackPair} (h : r ∉ stackPairRegisters p) (w : Addr) (s : State) :
    reg8 r (writeStackPair p w s) = reg8 r s := by
  cases p with
  | bc => exact reg8_setBc (List.ne_of_not_mem_cons h) (ne_second_of_not_mem h) w s
  | de => exact reg8_setDe (List.ne_of_not_mem_cons h) (ne_second_of_not_mem h) w s
  | hl => exact reg8_setHl (List.ne_of_not_mem_cons h) (ne_second_of_not_mem h) w s
  | psw => exact reg8_setAlu (List.ne_of_not_mem_cons h) (_, _) s

end

/-- A register that is no destination is kept: the cases are the rows of the table of destinations. -/
theorem exec_keeps_register {i : Instr} {s t : State} (h : exec i s = .next t) {r : Operand8} (hr : r ∉ destinations i) :
    reg8 r t = reg8 r s := by
  cases i with
  -- The named operand.
  | mov dst src => rw [eq_of_exec_mov h, reg8_writeOperand (List.ne_of_not_mem_cons hr), reg8_readOperand]
  | mvi dst v => cases h; exact reg8_writeOperand (List.ne_of_not_mem_cons hr) v s
  | inr dst | dcr dst =>
    cases h
    rw [reg8_writeOperand (List.ne_of_not_mem_cons hr), reg8_setFlags, reg8_readOperand]
  -- The named pair.
  | lxi p _ | inx p | dcx p => cases h; exact reg8_writePair hr _ s
  | pop p => cases h; rw [reg8_writeStackPair hr, reg8_pop16]
  -- H and L, or D and E too.
  | lhld addr =>
    cases h
    rw [reg8_setL_setH (List.ne_of_not_mem_cons hr) (ne_second_of_not_mem hr), reg8_memRead, reg8_memRead]
  | dad p =>
    cases h
    rw [reg8_setFlags, reg8_setHl (List.ne_of_not_mem_cons hr) (ne_second_of_not_mem hr)]
  | xthl =>
    cases h
    rw [reg8_setH_setL (List.ne_of_not_mem_cons hr) (ne_second_of_not_mem hr)]
    simp
  | xchg =>
    cases h
    have hhl := List.not_mem_of_not_mem_cons (List.not_mem_of_not_mem_cons hr)
    rw [reg8_setDe (List.ne_of_not_mem_cons hr) (ne_second_of_not_mem hr),
      reg8_setHl (List.ne_of_not_mem_cons hhl) (ne_second_of_not_mem hhl)]
  -- A.
  | lda addr | ldax p => cases h; rw [reg8_setA (List.ne_of_not_mem_cons hr), reg8_memRead]
  | inPort port => cases h; rw [reg8_setA (List.ne_of_not_mem_cons hr), reg8_ioRead]
  | add r' | adc r' | sub r' | sbb r' | ana r' | xra r' | ora r' =>
    cases h
    exact (reg8_setAlu (List.ne_of_not_mem_cons hr) _ _).trans (reg8_readOperand r s r')
  | adi _ | aci _ | sui _ | sbi _ | ani _ | xri _ | ori _ | daa | rlc | rrc | ral | rar =>
    cases h
    exact reg8_setAlu (List.ne_of_not_mem_cons hr) (_, _) s
  | cma => cases h; exact reg8_setA (List.ne_of_not_mem_cons hr) _ s
  -- No register.
  | cmp r' => cases h; exact (reg8_setFlags r _ _).trans (reg8_readOperand r s r')
  | cpi _ | cmc | stc => cases h; exact reg8_setFlags r s _
  | sta _ | stax _ | shld _ | push _ | call _ | rst _ | ret | jmp _ | pchl | sphl
  | jnz _ | jz _ | jnc _ | jc _ | jpo _ | jpe _ | jp _ | jm _
  | cnz _ | cz _ | cnc _ | cc _ | cpo _ | cpe _ | cp _ | cm _
  | rnz | rz | rnc | rc | rpo | rpe | rp | rm => cases h; simp
  | outPort _ | ei | di | hlt | nop => cases h; cases r <;> rfl

/-! SP. -/

@[simp] theorem jumpIf_sp (cond : Bool) (target : Addr) (s : State) : (jumpIf cond target s).sp = s.sp := by
  cases cond <;> rfl

@[simp] theorem writeOperand_sp (r : Operand8) (v : Byte) (s : State) : (writeOperand r v s).sp = s.sp := by
  cases r <;> simp [writeOperand]

theorem writePair_sp_of_ne {p : RegPair} (h : p ≠ .sp) (w : Addr) (s : State) : (writePair p w s).sp = s.sp := by
  cases p with
  | sp => exact absurd rfl h
  | bc | de | hl => rfl

theorem exec_keeps_sp {i : Instr} {s t : State} (h : exec i s = .next t) (hi : writesSp i = false) : t.sp = s.sp := by
  cases i with
  | mov dst src => rw [eq_of_exec_mov h]; simp
  | lxi p _ | inx p | dcx p => cases h; exact writePair_sp_of_ne (of_decide_eq_false hi) _ s
  | call _ | cnz _ | cz _ | cnc _ | cc _ | cpo _ | cpe _ | cp _ | cm _ | ret | rnz | rz | rnc | rc | rpo | rpe | rp | rm
  | rst _ | push _ | pop _ | sphl => cases hi
  | add r | adc r | sub r | sbb r | ana r | xra r | ora r | cmp r => cases h; exact readOperand_sp r s
  | mvi _ _ | inr _ | dcr _ | lda _ | sta _ | lhld _ | shld _ | ldax _ | stax _ | xthl | inPort _ | outPort _
  | jnz _ | jz _ | jnc _ | jc _ | jpo _ | jpe _ | jp _ | jm _ => cases h; simp
  | adi _ | aci _ | sui _ | sbi _ | ani _ | xri _ | ori _ | cpi _ | dad _ | daa | rlc | rrc | ral | rar | cma | cmc | stc
  | xchg | pchl | jmp _ | ei | di | hlt | nop => cases h; rfl

/-! PC. -/

@[simp] theorem writeOperand_pc (r : Operand8) (v : Byte) (s : State) : (writeOperand r v s).pc = s.pc := by
  cases r <;> simp [writeOperand]

@[simp] theorem writePair_pc (p : RegPair) (w : Addr) (s : State) : (writePair p w s).pc = s.pc := by cases p <;> rfl

@[simp] theorem writeStackPair_pc (p : StackPair) (w : Addr) (s : State) : (writeStackPair p w s).pc = s.pc := by
  cases p <;> rfl

theorem exec_keeps_pc {i : Instr} {s t : State} (h : exec i s = .next t) (hi : writesPc i = false) : t.pc = s.pc := by
  cases i with
  | mov dst src => rw [eq_of_exec_mov h]; simp
  | jmp _ | jnz _ | jz _ | jnc _ | jc _ | jpo _ | jpe _ | jp _ | jm _ | pchl
  | call _ | cnz _ | cz _ | cnc _ | cc _ | cpo _ | cpe _ | cp _ | cm _ | ret | rnz | rz | rnc | rc | rpo | rpe | rp | rm
  | rst _ => cases hi
  | add r | adc r | sub r | sbb r | ana r | xra r | ora r | cmp r => cases h; exact readOperand_pc r s
  | mvi _ _ | inr _ | dcr _ | lda _ | sta _ | lhld _ | shld _ | ldax _ | stax _ | xthl | inPort _ | outPort _
  | lxi _ _ | inx _ | dcx _ | push _ | pop _ => cases h; simp
  | adi _ | aci _ | sui _ | sbi _ | ani _ | xri _ | ori _ | cpi _ | dad _ | daa | rlc | rrc | ral | rar | cma | cmc | stc
  | xchg | sphl | ei | di | hlt | nop => cases h; rfl

/-! INTE, EIWAIT, HALTED and the interrupt source. -/

/-- What decides whether and how the next acceptance check takes a request, and whether the machine runs (R26, R27, R241). -/
def control (s : State) : Bool × Nat × Bool × IntSource := (s.inte, s.eiWait, s.halted, s.intSource)

theorem control_eq_iff (s t : State) : control t = control s ↔
    t.inte = s.inte ∧ t.eiWait = s.eiWait ∧ t.halted = s.halted ∧ t.intSource = s.intSource := by simp [control]

section
variable (s : State)

@[simp] theorem control_memRead (addr : Addr) : control (memRead addr s).2 = control s := by simp [control]
@[simp] theorem control_memWrite (addr : Addr) (v : Byte) : control (memWrite addr v s) = control s := by simp [control]
@[simp] theorem control_ioRead (port : Byte) : control (ioRead port s).2 = control s := by simp [control]
@[simp] theorem control_ioWrite (port v : Byte) : control (ioWrite port v s) = control s := by simp [control]
@[simp] theorem control_setA (v : Byte) : control (s.setA v) = control s := rfl
@[simp] theorem control_setH (v : Byte) : control (s.setH v) = control s := rfl
@[simp] theorem control_setL (v : Byte) : control (s.setL v) = control s := rfl
@[simp] theorem control_setFlags (f : Flags) : control (s.setFlags f) = control s := rfl
@[simp] theorem control_push16 (w : Addr) : control (push16 w s) = control s := by simp [control]
@[simp] theorem control_pop16 : control (pop16 s).2 = control s := by simp [control]
@[simp] theorem control_readOperand (r : Operand8) : control (readOperand r s).2 = control s := by simp [control]
@[simp] theorem control_writeOperand (r : Operand8) (v : Byte) : control (writeOperand r v s) = control s := by
  cases r <;> simp [writeOperand, control]
@[simp] theorem control_writePair (p : RegPair) (w : Addr) : control (writePair p w s) = control s := by cases p <;> rfl
@[simp] theorem control_writeStackPair (p : StackPair) (w : Addr) : control (writeStackPair p w s) = control s := by
  cases p <;> rfl
@[simp] theorem control_callTo (target : Addr) : control (callTo target s) = control s := by
  rw [callTo_frame]; rfl
@[simp] theorem control_returnTo : control (returnTo s) = control s := control_pop16 s
@[simp] theorem control_jumpIf (cond : Bool) (target : Addr) : control (jumpIf cond target s) = control s := by
  cases cond <;> rfl
@[simp] theorem control_callIf (cond : Bool) (target : Addr) : control (callIf cond target s) = control s := by
  cases cond <;> simp [callIf]
@[simp] theorem control_returnIf (cond : Bool) : control (returnIf cond s) = control s := by
  cases cond <;> simp [returnIf]

end

/-- EI, DI and HLT are the only instructions that write a control bit (R220, R221, R230). -/
theorem exec_keeps_control {i : Instr} {s t : State} (h : exec i s = .next t) (hei : i ≠ .ei) (hdi : i ≠ .di)
    (hhlt : i ≠ .hlt) : control t = control s := by
  cases i with
  | ei => exact absurd rfl hei
  | di => exact absurd rfl hdi
  | hlt => exact absurd rfl hhlt
  | mov dst src => rw [eq_of_exec_mov h]; simp
  | add r | adc r | sub r | sbb r | ana r | xra r | ora r | cmp r => cases h; exact control_readOperand s r
  | mvi _ _ | inr _ | dcr _ | lda _ | sta _ | lhld _ | shld _ | ldax _ | stax _ | xthl | inPort _ | outPort _
  | lxi _ _ | inx _ | dcx _ | push _ | pop _ | call _ | ret | rst _
  | jnz _ | jz _ | jnc _ | jc _ | jpo _ | jpe _ | jp _ | jm _
  | cnz _ | cz _ | cnc _ | cc _ | cpo _ | cpe _ | cp _ | cm _ | rnz | rz | rnc | rc | rpo | rpe | rp | rm => cases h; simp
  | adi _ | aci _ | sui _ | sbi _ | ani _ | xri _ | ori _ | cpi _ | dad _ | daa | rlc | rrc | ral | rar | cma | cmc | stc
  | xchg | sphl | pchl | jmp _ | nop => cases h; rfl

theorem exec_keeps_inte_eiWait {i : Instr} {s t : State} (h : exec i s = .next t) (hei : i ≠ .ei) (hdi : i ≠ .di) :
    t.inte = s.inte ∧ t.eiWait = s.eiWait := by
  by_cases hhlt : i = .hlt
  · subst hhlt; cases h; exact ⟨rfl, rfl⟩
  · obtain ⟨hinte, hwait, -⟩ := (control_eq_iff s t).mp (exec_keeps_control h hei hdi hhlt)
    exact ⟨hinte, hwait⟩

theorem exec_keeps_halted {i : Instr} {s t : State} (h : exec i s = .next t) (hhlt : i ≠ .hlt) : t.halted = s.halted := by
  by_cases hei : i = .ei
  · subst hei; cases h; rfl
  · by_cases hdi : i = .di
    · subst hdi; cases h; rfl
    · obtain ⟨-, -, hhalted, -⟩ := (control_eq_iff s t).mp (exec_keeps_control h hei hdi hhlt)
      exact hhalted

theorem exec_keeps_intSource {i : Instr} {s t : State} (h : exec i s = .next t) : t.intSource = s.intSource := by
  by_cases hbits : i = .ei ∨ i = .di ∨ i = .hlt
  · obtain rfl | rfl | rfl := hbits <;> cases h <;> rfl
  · simp only [not_or] at hbits
    obtain ⟨hei, hdi, hhlt⟩ := hbits
    obtain ⟨-, -, -, hsource⟩ := (control_eq_iff s t).mp (exec_keeps_control h hei hdi hhlt)
    exact hsource

/-- Settles O50: the four parts of the processor's state, and the platform's choices, which no bus cycle changes. -/
theorem registersChangeOnlyAsNamed : Obligations.RegistersChangeOnlyAsNamed := by
  intro i s t h
  refine ⟨fun r hm hr => ?register, exec_keeps_sp h, exec_keeps_pc h, exec_keeps_inte_eiWait h, exec_keeps_halted h,
    (exec_cycles h).config.1, (exec_cycles h).config.2, exec_keeps_intSource h⟩
  case register => rw [readOperand_fst_of_ne_m hm, readOperand_fst_of_ne_m hm, exec_keeps_register h hr]

end Sys2Proof.RegisterFrame
end

section
/-! SUPPORT. One step: what the fetch finds, that every instruction of the table completes, and what the acceptance check does in
each of its cases (R60, R64, R240, R243, R245). -/

namespace Sys2Proof.StepCases

open Sys2Proof.Machine Sys2Proof.Config Sys2Proof.Spec Sys2Proof.ControlTransfer Sys2Proof.Encoding Sys2Proof.Accesses
  Sys2Proof.StackMemory Sys2Proof.DeviceCycles Sys2Proof.RegisterFrame

/-! The fetch. -/

theorem fetch8_of_storedAt {s : State} (h : storedAt s s.pc) :
    fetch8 s = (s.byteAt s.pc, { s with pc := s.pc + 1 }) := by
  simp only [fetch8, memRead_stored h, State.setPc]

theorem fetchInstr_unused {s : State} (h : decodeOpcode (fetch8 s).1 = .unused) :
    fetchInstr s = .error (fetch8 s).1 := by simp only [fetchInstr, h]

theorem fetchInstr_bare {s : State} {i : Instr} (h : decodeOpcode (fetch8 s).1 = .bare i) :
    fetchInstr s = .ok (i, (fetch8 s).2) := by simp only [fetchInstr, h]

theorem fetchInstr_takesByte {s : State} {f : Byte → Instr} (h : decodeOpcode (fetch8 s).1 = .takesByte f) :
    fetchInstr s = .ok (f (fetch8 (fetch8 s).2).1, (fetch8 (fetch8 s).2).2) := by simp only [fetchInstr, h]

/-- What a fetch can find: an unused opcode, or a well-formed instruction. -/
theorem fetchInstr_cases (s : State) :
    ((fetch8 s).1 ∈ unusedOpcodes ∧ fetchInstr s = .error (fetch8 s).1) ∨
    ∃ i s1, fetchInstr s = .ok (i, s1) ∧ i.wellFormed = true := by
  cases hform : decodeOpcode (fetch8 s).1 with
  | unused => exact .inl ⟨(decodeOpcode_eq_unused_iff _).mp hform, fetchInstr_unused hform⟩
  | bare i => exact .inr ⟨_, _, fetchInstr_bare hform, (encode_of_bare hform).2⟩
  | takesByte f => exact .inr ⟨_, _, fetchInstr_takesByte hform, (encode_of_takesByte hform _).2⟩
  | takesWord f => exact .inr ⟨_, _, fetchInstr_takesWord hform, (encode_of_takesWord hform _).2⟩

/-- Over stored bytes the fetch finds what the bytes at PC decode to, and moves PC past it (R64, R65). -/
theorem fetchInstr_of_decode {s : State} {i : Instr} {rest : List Byte}
    (hdecode : decode [s.byteAt s.pc, s.byteAt (s.pc + 1), s.byteAt (s.pc + 2)] = .ok (i, rest))
    (hstored : ∀ k, k < (encode i).length → storedAt s (s.pc + BitVec.ofNat 16 k)) :
    fetchInstr s = .ok (i, { s with pc := s.pc + BitVec.ofNat 16 (encode i).length }) := by
  have hpc2 : s.pc + 1 + 1 = s.pc + 2 := by bv_omega
  have hpc3 : s.pc + 2 + 1 = s.pc + 3 := by bv_omega
  obtain ⟨hform, -⟩ | ⟨f, b2, hform, rfl, hrest⟩ | ⟨f, b2, b3, hform, rfl, hrest⟩ := decode_cases hdecode
  · obtain ⟨hbytes, -⟩ := encode_of_bare hform
    rw [hbytes] at hstored ⊢
    have hop := fetch8_of_storedAt (s := s) (by simpa using hstored 0)
    rw [fetchInstr_bare (by rwa [hop]), hop]
    rfl
  · obtain ⟨hbytes, -⟩ := encode_of_takesByte hform b2
    rw [hbytes] at hstored ⊢
    obtain ⟨rfl, -⟩ := List.cons.inj hrest
    have hop := fetch8_of_storedAt (s := s) (by simpa using hstored 0)
    have hb2 := fetch8_of_storedAt (s := { s with pc := s.pc + 1 }) (hstored 1 (by simp))
    rw [fetchInstr_takesByte (by rwa [hop]), hop, hb2, hpc2]
    rfl
  · obtain ⟨hbytes, -⟩ := encode_of_takesWord hform (joinBytes b3 b2)
    rw [hbytes] at hstored ⊢
    simp only [List.cons.injEq] at hrest
    obtain ⟨rfl, rfl, -⟩ := hrest
    have hop := fetch8_of_storedAt (s := s) (by simpa using hstored 0 (by simp [wordForm]))
    have hb2 := fetch8_of_storedAt (s := { s with pc := s.pc + 1 }) (hstored 1 (by simp [wordForm]))
    have hb3 := fetch8_of_storedAt (s := { s with pc := s.pc + 2 }) (hstored 2 (by simp [wordForm]))
    rw [fetchInstr_takesWord (by rwa [hop]), hop]
    simp only [fetch16, hb2, hpc2, hb3, hpc3]
    rfl

/-! The step of a running machine. -/

/-- The step, once the fetch has found an instruction and its meaning has ended (R243). -/
theorem step_of_exec {s s1 s2 : State} {i : Instr} (hrun : s.halted = false) (hfetch : fetchInstr s = .ok (i, s1))
    (hexec : exec i s1 = .next s2) : step s = interruptCheck s2 := by
  simp only [step, hrun, hfetch, hexec, Bool.false_eq_true, if_false]

theorem step_of_unused {s : State} {op : Byte} (hrun : s.halted = false) (hfetch : fetchInstr s = .error op) :
    step s = .fault (.illegalOpcode op) := by
  simp only [step, hrun, hfetch, Bool.false_eq_true, if_false]

/-- A halted machine runs the acceptance check only (R230). -/
theorem step_of_halted {s : State} (h : s.halted = true) : step s = interruptCheck s := by
  simp only [step, h, if_true]

/-- Settles O7: the form of a listed opcode is unused, whatever follows it. -/
theorem stepFaultsOnUnusedOpcode : Obligations.StepFaultsOnUnusedOpcode := by
  intro s hrun hstored hop
  have hfetch := fetch8_of_storedAt hstored
  have hunused := fetchInstr_unused (s := s) (by rwa [hfetch, decodeOpcode_eq_unused_iff])
  rw [step_of_unused hrun hunused, hfetch]

theorem exec_completes {i : Instr} (hwf : i.wellFormed = true) (s : State) : ∃ t, exec i s = .next t := by
  cases i with
  | mov dst src => exact ⟨_, exec_mov ((wellFormed_mov_iff dst src).mp hwf) s⟩
  | _ => exact ⟨_, rfl⟩

theorem exec_of_not_wellFormed {i : Instr} (hwf : i.wellFormed = false) (s : State) : exec i s = .refused .movMemMem := by
  cases i with
  | mov dst src =>
    have hm : dst = .m ∧ src = .m := by
      by_contra hne
      rw [(wellFormed_mov_iff dst src).mpr hne] at hwf
      cases hwf
    obtain ⟨rfl, rfl⟩ := hm
    rfl
  | _ => cases hwf

/-- Settles O9: each meaning ends in a next state, but for the term MOV M,M. -/
theorem everyInstructionCompletes : Obligations.EveryInstructionCompletes :=
  ⟨fun _ s hwf => exec_completes hwf s, fun _ s hwf => exec_of_not_wellFormed hwf s⟩

/-- Settles O6: over stored bytes the fetch is the decoding of the bytes at PC; what it finds is well formed and completes. -/
theorem stepRunsTheDecodedInstruction : Obligations.StepRunsTheDecodedInstruction := by
  intro s i rest hrun hdecode hstored
  obtain ⟨-, hwf⟩ := encodeOfDecodeIsTheBytes _ rest i hdecode
  obtain ⟨t, hexec⟩ := exec_completes hwf (s.setPc (s.pc + BitVec.ofNat 16 (encode i).length))
  simp only [hexec, step_of_exec hrun (fetchInstr_of_decode hdecode hstored) hexec]

/-! The acceptance check. -/

theorem interruptCheck_of_wait {s : State} (h : 0 < s.eiWait) :
    interruptCheck s = .next { s with intSource := (askSource s.intSource).2, eiWait := s.eiWait - 1 } := by
  simp only [interruptCheck]
  rw [if_pos h]
  rfl

theorem interruptCheck_of_wait_one {s : State} (h : s.eiWait = 1) :
    interruptCheck s = .next { s with eiWait := 0, intSource := (askSource s.intSource).2 } := by
  rw [interruptCheck_of_wait (by omega), h]

theorem interruptCheck_of_disabled {s : State} (hwait : s.eiWait = 0) (hinte : s.inte = false) :
    interruptCheck s = .next { s with intSource := (askSource s.intSource).2 } := by
  simp only [interruptCheck]
  rw [if_neg (by omega), if_neg (by simp [hinte])]
  rfl

theorem interruptCheck_of_no_request {s : State} (hwait : s.eiWait = 0) (hask : (askSource s.intSource).1 = none) :
    interruptCheck s = .next { s with intSource := (askSource s.intSource).2 } := by
  by_cases hinte : s.inte = true
  · simp only [interruptCheck, askIntSource_fst, hask]
    rw [if_neg (by omega), if_pos hinte]
    rfl
  · exact interruptCheck_of_disabled hwait (by simpa using hinte)

theorem interruptCheck_of_rst {s : State} {n : BitVec 3} (hwait : s.eiWait = 0) (hinte : s.inte = true)
    (hask : (askSource s.intSource).1 = some (rstOpcode n)) :
    interruptCheck s = .next (accept n { s with intSource := (askSource s.intSource).2 }) := by
  simp only [interruptCheck, askIntSource_fst, hask, rstNumber_rstOpcode]
  rw [if_neg (by omega), if_pos hinte]
  rfl

theorem interruptCheck_of_not_rst {s : State} {op : Byte} (hwait : s.eiWait = 0) (hinte : s.inte = true)
    (hask : (askSource s.intSource).1 = some op) (hop : rstNumber op = none) :
    interruptCheck s = .refused (.interruptOpcodeNotRst op) := by
  simp only [interruptCheck, askIntSource_fst, hask, hop]
  rw [if_neg (by omega), if_pos hinte]

theorem rstNumber_eq_none {op : Byte} (h : ∀ n, op ≠ rstOpcode n) : rstNumber op = none := by
  cases hop : rstNumber op with
  | none => rfl
  | some n => exact absurd (rstNumber_eq_some hop) (h n)

/-- Settles O44: the five cases of the check. -/
theorem acceptanceCheckByCases : Obligations.AcceptanceCheckByCases := by
  intro s
  refine ⟨interruptCheck_of_wait, interruptCheck_of_disabled, fun hwait hinte =>
    ⟨fun src hask => ?none, fun n src hask => ?rst, fun op src hask hop => ?other⟩⟩
  case none => rw [interruptCheck_of_no_request hwait (by rw [hask]), hask]
  case rst => rw [interruptCheck_of_rst hwait hinte (by rw [hask]; rfl), hask]
  case other => exact interruptCheck_of_not_rst hwait hinte (by rw [hask]) (rstNumber_eq_none hop)

/-- The check refuses only an opcode that the source has supplied (R245). -/
theorem interruptCheck_next_or_refused (s : State) :
    (∃ t, interruptCheck s = .next t) ∨
    ∃ op, rstNumber op = none ∧ (askSource s.intSource).1 = some op ∧
      interruptCheck s = .refused (.interruptOpcodeNotRst op) := by
  obtain hwait | hwait := Nat.eq_zero_or_pos s.eiWait
  · cases hask : (askSource s.intSource).1 with
    | none => exact .inl ⟨_, interruptCheck_of_no_request hwait hask⟩
    | some op =>
      cases hinte : s.inte with
      | false => exact .inl ⟨_, interruptCheck_of_disabled hwait hinte⟩
      | true =>
        cases hop : rstNumber op with
        | none => exact .inr ⟨op, hop, rfl, interruptCheck_of_not_rst hwait hinte hask hop⟩
        | some n =>
          rw [rstNumber_eq_some hop] at hask
          exact .inl ⟨_, interruptCheck_of_rst hwait hinte hask⟩
  · exact .inl ⟨_, interruptCheck_of_wait hwait⟩

theorem fetchInstr_keeps_intSource {s s1 : State} {i : Instr} (h : fetchInstr s = .ok (i, s1)) :
    s1.intSource = s.intSource := by
  obtain ⟨n, b, d, ev, rfl⟩ := fetchInstr_ok h
  rfl

/-- Settles O8: the fetch stops at an unused opcode only; what it finds completes; the check refuses one opcode only. -/
theorem stepStopsForTwoReasonsOnly : Obligations.StepStopsForTwoReasonsOnly := by
  intro s
  cases hrun : s.halted with
  | true =>
    rw [step_of_halted hrun]
    obtain hnext | hrefused := interruptCheck_next_or_refused s
    · exact .inl hnext
    · exact .inr (.inr hrefused)
  | false =>
    obtain ⟨hop, hfetch⟩ | ⟨i, s1, hfetch, hwf⟩ := fetchInstr_cases s
    · exact .inr (.inl ⟨_, hop, rfl, rfl, step_of_unused hrun hfetch⟩)
    · obtain ⟨s2, hexec⟩ := exec_completes hwf s1
      have hsource : s2.intSource = s.intSource :=
        (exec_keeps_intSource hexec).trans (fetchInstr_keeps_intSource hfetch)
      rw [step_of_exec hrun hfetch hexec, ← hsource]
      obtain hnext | hrefused := interruptCheck_next_or_refused s2
      · exact .inl hnext
      · exact .inr (.inr hrefused)

/-! EI and its delay. -/

/-- Settles O45: the check after EI finds EIWAIT above 0, and so does the check after any other instruction but DI. -/
theorem eiDelaysAcceptance : Obligations.EiDelaysAcceptance := by
  refine ⟨fun s s1 hrun hfetch => ?ei, fun s s1 s2 i hrun hwait hfetch hexec hdi => ?covered⟩
  case ei =>
    rw [step_of_exec hrun hfetch (exec_ei s1), interruptCheck_of_wait (Nat.succ_pos _)]
    obtain ⟨n, b, d, ev, rfl⟩ := fetchInstr_ok hfetch
    rfl
  case covered =>
    rw [step_of_exec hrun hfetch hexec]
    refine interruptCheck_of_wait ?_
    by_cases hei : i = .ei
    · subst hei
      cases hexec
      exact Nat.succ_pos _
    · obtain ⟨n, b, d, ev, rfl⟩ := fetchInstr_ok hfetch
      rw [(exec_keeps_inte_eiWait hexec hei hdi).2]
      exact hwait

/-- An instruction of one byte is fetched by its opcode. -/
theorem fetchInstr_of_byteAt {s : State} {op : Byte} {i : Instr} (hstored : storedAt s s.pc) (hop : s.byteAt s.pc = op)
    (hform : decodeOpcode op = .bare i) : fetchInstr s = .ok (i, s.setPc (s.pc + 1)) := by
  have hfetch := fetch8_of_storedAt hstored
  rw [fetchInstr_bare (i := i) (by rw [hfetch, hop, hform]), hfetch]
  rfl

/-- Over stored bytes a return pops PC and does nothing else (R181). -/
theorem returnTo_of_storedAt {s : State} (hlo : storedAt s s.sp) (hhi : storedAt s (s.sp + 1)) :
    returnTo s = { s with pc := joinBytes (s.byteAt (s.sp + 1)) (s.byteAt s.sp), sp := s.sp + 2 } := by
  rw [returnTo_eq, pop16_stored hlo hhi]
  rfl

/-- The state after the step of an EI at PC: the RET after it is next, with EIWAIT = EiDelay. -/
def afterEi (s : State) : State :=
  { s with pc := s.pc + 1, inte := true, eiWait := eiDelayOf s.params.eiDelay, intSource := (askSource s.intSource).2 }

/-- Settles O46: EI's step ends at the RET with EIWAIT = EiDelay; RET's rule comes before its check, which still finds that. -/
theorem eiThenRetReturnsFirst : Obligations.EiThenRetReturnsFirst := by
  intro s t hrun hpc hpc1 hei hret hstep
  rw [eiDelaysAcceptance.1 s _ hrun (fetchInstr_of_byteAt hpc hei rfl)] at hstep
  obtain rfl : afterEi s = t := Host.Outcome.next.inj hstep
  have hfetch := fetchInstr_of_byteAt (s := afterEi s) (i := .ret) hpc1 hret rfl
  have hstep' := step_of_exec (s := afterEi s) hrun hfetch (exec_ret _)
  refine ⟨rfl, rfl, hrun, rfl, _, hfetch, fun hlo hhi => ⟨_, exec_ret _, hstep', ?_⟩⟩
  rw [hstep', returnTo_of_storedAt (s := (afterEi s).setPc _) hlo hhi]
  refine ⟨rfl, rfl, rfl, rfl, rfl, fun hdelay => ?one, fun hdelay => ?zero⟩
  case one =>
    have hwait : (afterEi s).eiWait = 1 := by rw [afterEi, hdelay]; rfl
    exact interruptCheck_of_wait_one hwait
  case zero =>
    show eiDelayOf s.params.eiDelay = 0
    rw [hdelay]; rfl

end Sys2Proof.StepCases
end

section
/-! SUPPORT. The interrupt source as a sequence of answers: those listed, and after them none, a pattern over and over, or free
ones (R241, log 8). -/

namespace Sys2Proof.SourceAnswers

open Sys2Proof.Machine Sys2Proof.Config

/-- The listed answers come in their order. -/
theorem answerAt_listed (after : IntAfter) (drawn k : Nat) (listed : List (Option Byte)) (h : k < listed.length) :
    answerAt k { listed := listed, after := after, drawn := drawn } = listed[k] := by
  induction listed generalizing k with
  | nil => exact absurd h (Nat.not_lt_zero k)
  | cons answer rest ih =>
    cases k with
    | zero => rfl
    | succ k => exact ih k (Nat.lt_of_succ_lt_succ h)

/-- Once its listed answers are used up a source goes on as one that lists none. -/
theorem answerAt_after_listed (after : IntAfter) (drawn k : Nat) (listed : List (Option Byte)) :
    answerAt (listed.length + k) { listed := listed, after := after, drawn := drawn } =
      answerAt k { listed := [], after := after, drawn := drawn } := by
  induction listed with
  | nil => rw [List.length_nil, Nat.zero_add]
  | cons answer rest ih => rw [List.length_cons, Nat.add_right_comm, answerAt_succ, askSource_listed, ih]

theorem answerAt_never (drawn k : Nat) : answerAt k { listed := [], after := .never, drawn := drawn } = none :=
  answerAt_silent k rfl

theorem answerAt_free (drawn k : Nat) : answerAt k { listed := [], after := .free, drawn := drawn } =
    (freeRequest (drawn + k)).map rstOpcode := by
  induction k generalizing drawn with
  | zero => rfl
  | succ k ih => rw [answerAt_succ, askSource_free, ih, Nat.add_right_comm, Nat.add_assoc]

/-- The pattern's first answer is given when the list is empty, and the others are then listed. -/
theorem answerAt_again_succ (first : Option Byte) (rest : List (Option Byte)) (drawn k : Nat) :
    answerAt (k + 1) { listed := [], after := .again first rest, drawn := drawn } =
      answerAt k { listed := rest, after := .again first rest, drawn := drawn } := rfl

/-- The pattern's answers, repeated with its length as the period. -/
theorem answerAt_again (first : Option Byte) (rest : List (Option Byte)) (drawn k : Nat) :
    some (answerAt k { listed := [], after := .again first rest, drawn := drawn }) =
      (first :: rest)[k % (rest.length + 1)]? := by
  induction k using Nat.strongRecOn with
  | ind k ih =>
    cases k with
    | zero => rw [Nat.zero_mod]; rfl
    | succ k =>
      rw [answerAt_again_succ]
      obtain hlt | ⟨j, rfl⟩ : k < rest.length ∨ ∃ j, k = rest.length + j :=
        (Nat.lt_or_ge k rest.length).imp_right Nat.exists_eq_add_of_le
      · rw [answerAt_listed _ _ _ _ hlt, Nat.mod_eq_of_lt (by omega), List.getElem?_cons_succ, List.getElem?_eq_getElem hlt]
      · rw [answerAt_after_listed, ih j (by omega)]
        congr 1
        rw [show rest.length + j + 1 = j + (rest.length + 1) by omega, Nat.add_mod_right]

/-- Settles O60: the listed answers, and after them each of the three ways a source goes on. -/
theorem interruptSourceAdmitsEveryPattern : Obligations.InterruptSourceAdmitsEveryPattern := by
  intro listed rest first after drawn k
  refine ⟨answerAt_listed after drawn k listed, ?never, ?again, ?free⟩
  case never => rw [answerAt_after_listed, answerAt_never]
  case again => rw [answerAt_after_listed, answerAt_again]
  case free => rw [answerAt_after_listed, answerAt_free]; rfl

end Sys2Proof.SourceAnswers
end

section
/-! SUPPORT. The rules of the whole machine: the invariant, what every step keeps, how interrupts are enabled and halts begin and
end, and the end of a run (60_exceptions.md). -/

namespace Sys2Proof.WholeMachine

open Sys2Proof.Machine Sys2Proof.Config Sys2Proof.Spec Sys2Proof.DataTransfer Sys2Proof.ControlTransfer Sys2Proof.Encoding
  Sys2Proof.Accesses Sys2Proof.StackMemory Sys2Proof.DeviceCycles Sys2Proof.BusCycles Sys2Proof.RegisterFrame
  Sys2Proof.StepCases

/-! A step as bus cycles. -/

section
variable {ports : Prop} {stores : Addr → Prop}

theorem fetch8_cycles {s t : State} (h : Cycles ports stores s t) : Cycles ports stores s (fetch8 t).2 :=
  (h.read t.pc).registers rfl

theorem fetchInstr_cycles {s s1 : State} {i : Instr} (h : fetchInstr s = .ok (i, s1)) : Cycles ports stores s s1 := by
  have h1 : Cycles ports stores s (fetch8 s).2 := fetch8_cycles .start
  cases hform : decodeOpcode (fetch8 s).1 with
  | unused => rw [fetchInstr_unused hform] at h; cases h
  | bare i => rw [fetchInstr_bare hform] at h; cases h; exact h1
  | takesByte f => rw [fetchInstr_takesByte hform] at h; cases h; exact fetch8_cycles h1
  | takesWord f => rw [fetchInstr_takesWord hform] at h; cases h; exact fetch8_cycles (fetch8_cycles h1)

end

/-- What the check can answer when it answers a next state: it counts EIWAIT down, or does nothing, or accepts RST n. -/
theorem interruptCheck_next {s t : State} (h : interruptCheck s = .next t) :
    (0 < s.eiWait ∧ t = { s with intSource := (askSource s.intSource).2, eiWait := s.eiWait - 1 }) ∨
    (s.eiWait = 0 ∧ t = { s with intSource := (askSource s.intSource).2 }) ∨
    (s.eiWait = 0 ∧ s.inte = true ∧ ∃ n, (askSource s.intSource).1 = some (rstOpcode n) ∧
      t = accept n { s with intSource := (askSource s.intSource).2 }) := by
  obtain ⟨hwait, ht⟩ | ⟨hwait, -, ht⟩ | ⟨hwait, hinte, op, n, hask, hop, ht⟩ := interruptCheck_cases h
  · exact .inl ⟨hwait, ht⟩
  · exact .inr (.inl ⟨hwait, ht⟩)
  · exact .inr (.inr ⟨hwait, hinte, n, by rw [← rstNumber_eq_some hop]; exact hask, ht⟩)

theorem interruptCheck_cycles {ports : Prop} {s t : State} (h : interruptCheck s = .next t) :
    Cycles ports (fun _ => True) s t := by
  obtain ⟨-, rfl⟩ | ⟨-, rfl⟩ | ⟨-, -, n, -, rfl⟩ := interruptCheck_next h
  · exact .registers .start rfl
  · exact .registers .start rfl
  · rw [accept_eq_callTo]
    have hdisarmed : Cycles ports (fun _ => True) s (disarmed { s with intSource := (askSource s.intSource).2 }) :=
      .registers .start rfl
    exact hdisarmed.callTo trivial trivial _

/-- Whatever a step does, it does by cycles. -/
theorem step_cycles {s t : State} (h : step s = .next t) : Cycles True (fun _ => True) s t := by
  obtain ⟨-, hcheck⟩ | ⟨-, i, s1, s2, hfetch, hexec, hcheck⟩ := step_cases h
  · exact interruptCheck_cycles hcheck
  · exact ((fetchInstr_cycles hfetch).trans ((exec_cycles hexec).mono (fun _ => trivial) fun _ _ => trivial)).trans
      (interruptCheck_cycles hcheck)

theorem interruptCheck_intSource {s t : State} (h : interruptCheck s = .next t) :
    t.intSource = (askSource s.intSource).2 := by
  obtain ⟨-, rfl⟩ | ⟨-, rfl⟩ | ⟨-, -, n, -, rfl⟩ := interruptCheck_next h
  · rfl
  · rfl
  · exact accept_intSource n _

/-- A step asks the source once, whatever it runs (R243). -/
theorem step_intSource {s t : State} (h : step s = .next t) : t.intSource = (askSource s.intSource).2 := by
  obtain ⟨-, hcheck⟩ | ⟨-, i, s1, s2, hfetch, hexec, hcheck⟩ := step_cases h
  · exact interruptCheck_intSource hcheck
  · rw [interruptCheck_intSource hcheck, exec_keeps_intSource hexec, fetchInstr_keeps_intSource hfetch]

/-- Settles O54: the map, the parameters and the trace along the cycles of the step, and its one question to the source. -/
theorem stepKeepsThePlatformsChoices : Obligations.StepKeepsThePlatformsChoices := fun _ _ h =>
  ⟨(step_cycles h).config.1, (step_cycles h).config.2, (step_cycles h).events_grow, step_intSource h⟩

/-- Settles O55: no cycle of the step changes such a byte. -/
theorem stepNeverWritesOutsideRam : Obligations.StepNeverWritesOutsideRam := fun _ _ _ h haddr =>
  (step_cycles h).byteAt_of_not_ramAt haddr

/-! The invariant. -/

/-- The part of the invariant that concerns EIWAIT (R220, R221, R244). -/
def WaitBounded (s : State) : Prop := s.eiWait ≤ eiDelayOf s.params.eiDelay + 1 ∧ (s.inte = false → s.eiWait = 0)

theorem exec_keeps_waitBounded {i : Instr} {s t : State} (hs : WaitBounded s) (h : exec i s = .next t) : WaitBounded t := by
  by_cases hbits : i = .ei ∨ i = .di
  · obtain rfl | rfl := hbits
    · cases h; exact ⟨Nat.le_refl _, Bool.noConfusion⟩
    · cases h; exact ⟨Nat.zero_le _, fun _ => rfl⟩
  · obtain ⟨hinte, hwait⟩ := exec_keeps_inte_eiWait h (fun hei => hbits (.inl hei)) fun hdi => hbits (.inr hdi)
    unfold WaitBounded
    rw [hinte, hwait, (exec_cycles h).config.2]
    exact hs

theorem interruptCheck_keeps_waitBounded {s t : State} (hs : WaitBounded s) (h : interruptCheck s = .next t) :
    WaitBounded t := by
  obtain ⟨hle, hdisabled⟩ := hs
  obtain ⟨-, rfl⟩ | ⟨-, rfl⟩ | ⟨-, -, n, -, rfl⟩ := interruptCheck_next h
  · exact ⟨(Nat.sub_le _ _).trans hle, fun hinte => by simp [hdisabled hinte]⟩
  · exact ⟨hle, hdisabled⟩
  · exact ⟨by simp, fun _ => accept_eiWait n _⟩

theorem step_keeps_waitBounded {s t : State} (hs : WaitBounded s) (h : step s = .next t) : WaitBounded t := by
  obtain ⟨-, hcheck⟩ | ⟨-, i, s1, s2, hfetch, hexec, hcheck⟩ := step_cases h
  · exact interruptCheck_keeps_waitBounded hs hcheck
  · have hs1 : WaitBounded s1 := by
      obtain ⟨n, b, d, ev, rfl⟩ := fetchInstr_ok hfetch
      exact hs
    exact interruptCheck_keeps_waitBounded (exec_keeps_waitBounded hs1 hexec) hcheck

/-- Settles O52: memory stays canonical along the cycles of the step; EIWAIT is written by EI, DI and the check only. -/
theorem stepKeepsTheInvariant : Obligations.StepKeepsTheInvariant := by
  rintro s t ⟨hwf, hwait⟩ h
  exact ⟨(step_cycles h).wf hwf, step_keeps_waitBounded hwait h⟩

/-! INTE and HALTED. -/

theorem interruptCheck_inte_of_true {s t : State} (h : interruptCheck s = .next t) (hinte : t.inte = true) :
    s.inte = true := by
  obtain ⟨-, rfl⟩ | ⟨-, rfl⟩ | ⟨-, hs, -⟩ := interruptCheck_next h
  · exact hinte
  · exact hinte
  · exact hs

theorem interruptCheck_halted_of_true {s t : State} (h : interruptCheck s = .next t) (hhalted : t.halted = true) :
    s.halted = true := by
  obtain ⟨-, rfl⟩ | ⟨-, rfl⟩ | ⟨-, -, n, -, rfl⟩ := interruptCheck_next h
  · exact hhalted
  · exact hhalted
  · rw [accept_halted] at hhalted
    cases hhalted

/-- Settles O56: the check enables nothing, DI disables, and of the others only EI writes INTE. -/
theorem onlyEiEnablesInterrupts : Obligations.OnlyEiEnablesInterrupts := by
  intro s t h hs ht
  obtain ⟨-, hcheck⟩ | ⟨hrun, i, s1, s2, hfetch, hexec, hcheck⟩ := step_cases h
  · rw [interruptCheck_inte_of_true hcheck ht] at hs
    cases hs
  · have hs2 : s2.inte = true := interruptCheck_inte_of_true hcheck ht
    have hei : i = .ei := by
      by_contra hei
      obtain ⟨n, b, d, ev, rfl⟩ := fetchInstr_ok hfetch
      by_cases hdi : i = .di
      · subst hdi
        cases hexec
        cases hs2
      · rw [(exec_keeps_inte_eiWait hexec hei hdi).1] at hs2
        exact Bool.noConfusion (hs.symm.trans hs2)
    exact ⟨hrun, s1, hei ▸ hfetch⟩

/-- Settles O57: HLT alone sets HALTED, and the check clears it in its one case that accepts. -/
theorem haltIsEnteredByHltAndLeftByInterrupt : Obligations.HaltIsEnteredByHltAndLeftByInterrupt := by
  refine ⟨fun s t h hs ht => ?entered, fun s t h hs ht => ?left⟩
  case entered =>
    obtain ⟨hhalted, -⟩ | ⟨-, i, s1, s2, hfetch, hexec, hcheck⟩ := step_cases h
    · rw [hs] at hhalted
      cases hhalted
    · have hs2 : s2.halted = true := interruptCheck_halted_of_true hcheck ht
      have hhlt : i = .hlt := by
        by_contra hhlt
        obtain ⟨n, b, d, ev, rfl⟩ := fetchInstr_ok hfetch
        rw [exec_keeps_halted hexec hhlt] at hs2
        exact Bool.noConfusion (hs.symm.trans hs2)
      exact ⟨s1, hhlt ▸ hfetch⟩
  case left =>
    rw [step_of_halted hs] at h
    obtain ⟨-, rfl⟩ | ⟨-, rfl⟩ | ⟨hwait, hinte, n, hask, rfl⟩ := interruptCheck_next h
    · exact Bool.noConfusion (hs.symm.trans ht)
    · exact Bool.noConfusion (hs.symm.trans ht)
    · exact ⟨hinte, hwait, n, _, Prod.ext hask rfl, rfl⟩

/-! The end of a run. -/

theorem run_succ {s t : State} (k : Nat) (h : step s = .next t) :
    Sys2Proof.core.run (k + 1) s = Sys2Proof.core.run k t := by
  have hcore : Sys2Proof.core.step s = .next t := h
  simp only [Host.Core.run, hcore]

theorem neverRequests_askSource {src : IntSource} (h : NeverRequests src) :
    (askSource src).1 = none ∧ NeverRequests (askSource src).2 := ⟨h 0, fun k => h (k + 1)⟩

/-- The state that a check ends in when it takes no request. -/
def afterRefusal (s : State) : State := { s with intSource := (askSource s.intSource).2, eiWait := s.eiWait - 1 }

theorem interruptCheck_of_final {s : State} (h : s.inte = false ∨ NeverRequests s.intSource) :
    interruptCheck s = .next (afterRefusal s) := by
  obtain hwait | hwait := Nat.eq_zero_or_pos s.eiWait
  · have hsame : afterRefusal s = { s with intSource := (askSource s.intSource).2 } := by rw [afterRefusal, hwait]
    rw [hsame]
    obtain hinte | hnever := h
    · exact interruptCheck_of_disabled hwait hinte
    · exact interruptCheck_of_no_request hwait (neverRequests_askSource hnever).1
  · exact interruptCheck_of_wait hwait

theorem step_of_final {s : State} (h : s.Final) : step s = .next (afterRefusal s) := by
  obtain ⟨hhalted, hnone⟩ := h
  rw [step_of_halted hhalted, interruptCheck_of_final hnone]

theorem afterRefusal_final {s : State} (h : s.Final) : (afterRefusal s).Final := by
  obtain ⟨hhalted, hnone⟩ := h
  exact ⟨hhalted, hnone.imp id fun hnever => (neverRequests_askSource hnever).2⟩

/-- A final state stays final, and the same but for the source and EIWAIT, for any number of steps. -/
theorem run_of_final (k : Nat) {s : State} (h : s.Final) :
    ∃ t, Sys2Proof.core.run k s = .next t ∧ sameButInterruptSource s t ∧ t.Final := by
  induction k generalizing s with
  | zero => exact ⟨s, rfl, rfl, h⟩
  | succ k ih =>
    obtain ⟨t, hrun, hsame, hfinal⟩ := ih (afterRefusal_final h)
    exact ⟨t, by rw [run_succ k (step_of_final h), hrun], hsame, hfinal⟩

/-- A halted machine that may be interrupted waits through the checks without a request and accepts the first one. -/
theorem run_to_first_request (k : Nat) {n : BitVec 3} {s : State} (hhalted : s.halted = true) (hinte : s.inte = true)
    (hwait : s.eiWait = 0) (hnone : ∀ j, j < k → answerAt j s.intSource = none)
    (hrst : answerAt k s.intSource = some (rstOpcode n)) :
    Sys2Proof.core.run (k + 1) s = .next (accept n { s with intSource := sourceAfter (k + 1) s.intSource }) := by
  induction k generalizing s with
  | zero => exact run_succ 0 ((step_of_halted hhalted).trans (interruptCheck_of_rst hwait hinte hrst))
  | succ k ih =>
    have hstep := (step_of_halted hhalted).trans (interruptCheck_of_no_request hwait (hnone 0 (Nat.succ_pos k)))
    rw [run_succ (k + 1) hstep]
    exact ih hhalted hinte hwait (fun j hj => hnone (j + 1) (Nat.succ_lt_succ hj)) hrst

/-- Settles O58: both by induction on the steps, one question to the source at each. -/
theorem finalStateIsFinal : Obligations.FinalStateIsFinal :=
  ⟨fun k _ h => run_of_final k h, fun k _ _ => run_to_first_request k⟩

/-! A store into the instruction stream. -/

/-- The decoding of an STA whose address bytes are those of `addr` (R84). -/
theorem decode_sta (addr : Addr) : decode [0x32, lowByte addr, highByte addr] = .ok (.sta addr, []) :=
  decodeOfEncodeIsTheInstruction (.sta addr) [] rfl

/-- With interrupts disabled the check changes neither PC nor memory nor the map. -/
theorem interruptCheck_of_inte_false {s t : State} (hinte : s.inte = false) (h : interruptCheck s = .next t) :
    t.pc = s.pc ∧ t.mem = s.mem ∧ t.memMap = s.memMap := by
  obtain ⟨-, rfl⟩ | ⟨-, rfl⟩ | ⟨-, hs, -⟩ := interruptCheck_next h
  · exact ⟨rfl, rfl, rfl⟩
  · exact ⟨rfl, rfl, rfl⟩
  · exact Bool.noConfusion (hinte.symm.trans hs)

/-- Settles O59: STA's write, which the check leaves, is the byte that the fetch at the new PC reads. -/
theorem nextFetchSeesTheStore : Obligations.NextFetchSeesTheStore := by
  intro s t addr hrun hinte h0 h1 h2 hram haddr hop hlow hhigh hstep
  have hstored : ∀ k, k < (encode (.sta addr)).length → storedAt s (s.pc + BitVec.ofNat 16 k) := by
    intro k hk
    have hk3 : k < 3 := hk
    interval_cases k
    · simpa using h0
    · exact h1
    · exact h2
  have hfetch := fetchInstr_of_decode (by rw [hop, hlow, hhigh]; exact decode_sta addr) hstored
  rw [step_of_exec hrun hfetch (exec_sta addr _)] at hstep
  obtain ⟨hpc, hmem, hmap⟩ := interruptCheck_of_inte_false (by rw [memWrite_inte]; exact hinte) hstep
  rw [memWrite_pc] at hpc
  rw [memWrite_memMap] at hmap
  have htpc : t.pc = addr := by rw [hpc, haddr]; rfl
  have hbyte : t.byteAt addr = s.a := by
    rw [State.byteAt, hmem]
    exact memWrite_byteAt_same s.a hram
  refine ⟨htpc, ?_⟩
  rw [fetch8_of_storedAt (.inl (by rw [hmap, htpc]; exact hram)), htpc, hbyte]

end Sys2Proof.WholeMachine
end
